-- ==== Sys2Proof/Word.lean ====
section
/-! DEFINITION. The word types of the RL2240: bytes, link and row fields, and the 16 data bytes of a row.
A row's 16 data bytes are one 128-bit vector whose MOST significant byte is data byte 0 (the byte at the
lowest front-port address, R91, R94), so that a layout of chapter 12, stored most significant byte first,
reads as a plain concatenation of its fields. -/
namespace Sys2Proof

/-- A byte of a link frame or of a payload. -/
abbrev Byte := BitVec 8

/-- A 16-bit field: a side word, a check value, a back-link slot (R91, R200). -/
abbrev Half := BitVec 16

/-- A 32-bit field: an epoch, a sequence number, a generation, an acceptance number, a data beat. -/
abbrev Word := BitVec 32

/-- A front-port byte address, 28 bits (R94). -/
abbrev Address := BitVec 28

/-- The 16 data bytes of a row, data byte 0 in the most significant place (R91). -/
abbrev RowData := BitVec 128

/-- The largest 32-bit number, 4,294,967,295: the last epoch (R27) and the last sequence number (R16). -/
abbrev maxWord : Word := 0xFFFFFFFF#32

end Sys2Proof
end

