-- ==== Sys2Proof/Syntax.lean ====
section
/-! DEFINITION. The commands of the RL2240: one constructor of Instr per row of spec/opcode_table.json, with
the operands its sender gives. The senders are the processor (front port), the memory device (memory port),
the board's lines, the driver (control link) and the part's own events that the table lists as steps. -/
namespace Sys2Proof

/-- A row as the memory device holds it: 16 data bytes and the side word, read and written whole (R91). -/
structure Row where
  data : RowData
  side : Half
  deriving DecidableEq, Repr

/-- One beat of a write burst: four byte enables and four data bytes (R110). Enable bit j belongs to the
byte at address A + 4i + j (R94). The beat's byte at the lowest address is the most significant byte of
`data`, as in RowData (the model's own spelling, log entry 8). -/
structure Beat where
  enable : BitVec 4
  data : Word
  deriving DecidableEq, Repr

/-- What an attempt of a ROW_WRITE that did not complete leaves in its row (R149, R159): the former contents,
the new contents, or a torn row that reads BAD. A torn row is given by its data bytes and by a damage that
the side word differs by from the check value, so that it reads BAD whatever the damage is. -/
inductive Residue
  | former
  | new
  | torn (data : RowData) (damage : Half)
  deriving DecidableEq, Repr

/-- The commands, in the order of spec/opcode_table.json. -/
inductive Instr
  /-- FRONT_READ_REQUEST (R120): the processor presents a read of `beats` beats at `address`. -/
  | frontReadRequest (address : Address) (beats : Nat)
  /-- FRONT_WRITE_REQUEST (R115): the processor presents a write; the burst length is the number of beats. -/
  | frontWriteRequest (address : Address) (beats : List Beat)
  /-- HELD_WRITE_ACCEPT (R115): a held write is accepted when there is room and acceptance is open. -/
  | heldWriteAccept
  /-- HOLD_TIMER_EXPIRY (R123): the hold timer of the one timed request expires. -/
  | holdTimerExpiry
  /-- JOB_TAKE (R131): the idle Row Engine examines its candidates. -/
  | jobTake
  /-- MEMORY_ATTEMPT_DONE (R149): the device signals completion. `delivered` is the row a read delivers when
  the device altered it since it was stored (R93); none when it returns the row as stored. -/
  | memoryAttemptDone (delivered : Option Row)
  /-- MEMORY_ATTEMPT_FAIL (R149): the device signals failure; `left` is what a write attempt leaves. -/
  | memoryAttemptFail (left : Residue)
  /-- ATTEMPT_TIMER_EXPIRY (R150): the timeout of the attempt in flight expires. -/
  | attemptTimerExpiry
  /-- ABORT_ACKNOWLEDGE (R150): the device acknowledges the abort; `left` is what a write attempt left. -/
  | abortAcknowledge (left : Residue)
  /-- DRAIN_END (R50): the drain of the current long operation ends and execution begins. -/
  | drainEnd
  /-- APPLY_ACTIVATION (R172): the confirmed staged record becomes the active configuration. -/
  | applyActivation
  /-- FREEZE_DEFERRED_DECISION (R106): a deferred FREEZE is decided. -/
  | freezeDeferredDecision
  /-- QUIESCED_ENTRY (R85): the settled part enters QUIESCED. -/
  | quiescedEntry
  /-- CKPT_EDGE (R188): a rising edge on CKPT. -/
  | ckptEdge
  /-- PFW_ASSERT (R83). -/
  | pfwAssert
  /-- PFW_DEASSERT (R85). -/
  | pfwDeassert
  /-- RST_ASSERT (R74): RST asserted or power falling; `left` is what a write attempt in flight leaves (R159). -/
  | rstAssert (left : Residue)
  /-- START (R75): the start begins; `ckptHigh` is the level of CKPT at that moment (R187). -/
  | start (ckptHigh : Bool)
  /-- RESPONSE_READ (R179): a read transfer in which `clocked` whole bytes are clocked. -/
  | responseRead (clocked : Nat)
  /-- FRAME_ERROR (R178): a command transfer of these whole bytes (`cut`: it ended part way through a byte)
  that fails a check of R178. -/
  | frameError (bytes : List Byte) (cut : Bool)
  /-- UNKNOWN_COMMAND (R178): a well-formed frame of these bytes whose code names no command. -/
  | unknownCommand (bytes : List Byte)
  /-- STATUS (R198). -/
  | status
  /-- IDENT (R199). -/
  | ident
  /-- COMPLETION (R186). -/
  | completion
  /-- FAULT_POP (R194). -/
  | faultPop
  /-- CFG_READ (R166): selector byte and field identifier byte. -/
  | cfgRead (selector identifier : Byte)
  /-- CFG_STAGE (R167): field identifier byte and a four-byte value. -/
  | cfgStage (identifier : Byte) (value : Word)
  /-- CFG_COPY (R167). -/
  | cfgCopy
  /-- ALERT_MASK (R182). -/
  | alertMask (mask : Byte)
  /-- FREEZE (R105): region index byte. -/
  | freeze (region : Byte)
  /-- SAVE (R45). -/
  | save
  /-- RELEASE (R45). -/
  | release
  /-- UNDO (R47). -/
  | undo
  /-- COMMIT (R48). -/
  | commit
  /-- ROLLBACK (R47). -/
  | rollback
  /-- RESUME (R45): the skip flag byte (R183). -/
  | resume (skip : Byte)
  /-- FORMAT (R45). -/
  | format
  /-- APPLY (R168). -/
  | apply
  deriving DecidableEq, Repr

end Sys2Proof
end

