-- ==== Sys2Proof/Config.lean ====
section
/-! DEFINITION. What the spec leaves open: the free choice the model takes where two orders are both allowed,
and the contents of a row of the memory device that nothing has written. -/
namespace Sys2Proof.Config

/-- The outcome of a choice the spec leaves open between two orders or two reasons (log entry 2): the drop at
power-fail quiesce against the drain's own action on the same head (R51), two filings that arrive together
(R192), the two refusals of a CFG_READ (R166). It has no body, so a claim holds whatever it answers. The
argument is State's counter `freeCount`, so each choice is made afresh. -/
opaque freeChoice : Nat → Bool

/-- What a row that the device was never written in reads as: 16 zero bytes and a zero side word
(DESIGN CHOICE, unsafe, log entry 1). -/
def unwrittenRow : Row := { data := 0#128, side := 0#16 }

end Sys2Proof.Config
end

