-- ==== Sys2Proof/Machine/Crc.lean ====
section
/-! DEFINITION. The two cyclic checks of the part: the 16-bit check value of a row (R92) and the 8-bit frame
CRC of the control link (R177). Both shift one register by one bit for each message bit, most significant
bit first, with no reflection and no final inversion. -/
namespace Sys2Proof.Machine

/-- One message bit: the register shifts left by one, and the polynomial is added when the exclusive-or of
the bit and the register's most significant bit was 1 (R92, R177). -/
def crcStep {w : Nat} (poly reg : BitVec w) (bit : Bool) : BitVec w :=
  if bit ^^ reg.msb then (reg <<< 1) ^^^ poly else reg <<< 1

/-- The lower `n` bits of a message, taken from bit n - 1 down to bit 0. -/
def crcFeed {w m : Nat} (poly : BitVec w) (message : BitVec m) : Nat → BitVec w → BitVec w
  | 0, reg => reg
  | n + 1, reg => crcFeed poly message n (crcStep poly reg (message.getLsbD n))

/-- The check value of a row (R92): polynomial 1021h from FFFFh over the row number's three bytes, most
significant first, and then the 16 data bytes, data byte 0 first. -/
def checkValue (row : Nat) (data : RowData) : Half :=
  crcFeed 0x1021#16 (BitVec.ofNat 24 row ++ data) 152 0xFFFF#16

/-- The frame CRC (R177): polynomial 07h from 00h over the bytes in order. -/
def frameCrc (bytes : List Byte) : Byte :=
  bytes.foldl (fun reg b => crcFeed 0x07#8 b 8 reg) 0#8

/-- A row read at row number `row` is GOOD when its side word equals its check value, and BAD otherwise (R93). -/
def rowGood (row : Nat) (r : Row) : Bool := r.side == checkValue row r.data

/-- A row as the part writes it: its side word is computed afresh for the row number written (R93). -/
def freshRow (row : Nat) (data : RowData) : Row := { data := data, side := checkValue row data }

end Sys2Proof.Machine
end

