-- ==== Sys2Proof/Decode.lean ====
section
/-! DEFINITION. The control link's frames: what command a transfer spells (R176, R178, R202) and the frame that
spells a command. No row of spec/opcode_table.json gives bits, so decodeTableWord names none. -/
namespace Sys2Proof

/-- The number of argument bytes of a command code, or none when the code names no command (R178, R202). -/
def argumentCount (code : Byte) : Option Nat :=
  match code.toNat with
  | 0x10 | 0x11 | 0x12 | 0x13 | 0x22 => some 0
  | 0x20 => some 2
  | 0x21 => some 5
  | 0x23 | 0x24 => some 1
  | 0x40 | 0x41 | 0x42 | 0x43 | 0x44 | 0x45 => some 0
  | 0x46 => some 1
  | 0x47 => some 0
  | _ => none

/-- The command a code byte names, with its argument bytes (R202). A CFG_STAGE value travels as four bytes,
most significant byte first. -/
def commandOf (code : Byte) (args : List Byte) : Option Instr :=
  match code.toNat, args with
  | 0x10, [] => some .status
  | 0x11, [] => some .ident
  | 0x12, [] => some .completion
  | 0x13, [] => some .faultPop
  | 0x20, [selector, identifier] => some (.cfgRead selector identifier)
  | 0x21, [identifier, a, b, c, d] => some (.cfgStage identifier (a ++ b ++ c ++ d))
  | 0x22, [] => some .cfgCopy
  | 0x23, [mask] => some (.alertMask mask)
  | 0x24, [region] => some (.freeze region)
  | 0x40, [] => some .save
  | 0x41, [] => some .release
  | 0x42, [] => some .undo
  | 0x43, [] => some .commit
  | 0x44, [] => some .rollback
  | 0x45, [] => some .format
  | 0x46, [skip] => some (.resume skip)
  | 0x47, [] => some .apply
  | _, _ => none

/-- What a transfer is: nothing when it carries no whole byte (R176); a read transfer when its first whole byte
is 5Ah; otherwise a command transfer, checked in the order of R178. -/
def decodeTransfer (bytes : List Byte) (cut : Bool) : Option Instr :=
  match bytes with
  | [] => none
  | code :: rest =>
    if code = 0x5A#8 then some (.responseRead bytes.length)
    else if cut || rest.isEmpty then some (.frameError bytes cut)
    else if Machine.frameCrc bytes ≠ 0#8 then some (.frameError bytes cut)
    else match argumentCount code with
      | none => some (.unknownCommand bytes)
      | some n =>
        if bytes.length ≠ n + 2 then some (.frameError bytes cut)
        else some ((commandOf code rest.dropLast).getD (.frameError bytes cut))

/-- The code byte and argument bytes of a link command; none for a row that is no link command (R202). -/
def commandBody : Instr → Option (List Byte)
  | .status => some [0x10#8]
  | .ident => some [0x11#8]
  | .completion => some [0x12#8]
  | .faultPop => some [0x13#8]
  | .cfgRead selector identifier => some [0x20#8, selector, identifier]
  | .cfgStage identifier value =>
    some [0x21#8, identifier, value.extractLsb' 24 8, value.extractLsb' 16 8, value.extractLsb' 8 8,
      value.extractLsb' 0 8]
  | .cfgCopy => some [0x22#8]
  | .alertMask mask => some [0x23#8, mask]
  | .freeze region => some [0x24#8, region]
  | .save => some [0x40#8]
  | .release => some [0x41#8]
  | .undo => some [0x42#8]
  | .commit => some [0x43#8]
  | .rollback => some [0x44#8]
  | .format => some [0x45#8]
  | .resume skip => some [0x46#8, skip]
  | .apply => some [0x47#8]
  | .frontReadRequest _ _ | .frontWriteRequest _ _ | .heldWriteAccept | .holdTimerExpiry | .jobTake
  | .memoryAttemptDone _ | .memoryAttemptFail _ | .attemptTimerExpiry | .abortAcknowledge _ | .drainEnd
  | .applyActivation | .freezeDeferredDecision | .quiescedEntry | .ckptEdge | .pfwAssert | .pfwDeassert
  | .rstAssert _ | .start _ | .responseRead _ | .frameError _ _ | .unknownCommand _ => none

/-- The frame of a link command: its body and then the frame CRC over the body (R178). -/
def encodeFrame (i : Instr) : Option (List Byte) :=
  (commandBody i).map fun body => body ++ [Machine.frameCrc body]

/-- The command a word spells by the bits of spec/opcode_table.json: no row of the table gives bits, so no word
spells one (the host's interface; the link's own frames are decodeTransfer's). -/
def decodeTableWord (_nbits _w : Nat) : Option Instr := none

end Sys2Proof
end

