-- ==== Sys2Proof/Machine/State.lean ====
section
/-! DEFINITION. The state of the RL2240 as plain data: every register, queue, latch, record and line the spec
gives the nine blocks, the rows of the memory device, and the queue of waiting commands. Where the spec names
one thing twice (the tail and the slot table's length, the Region Map's entries and the active
configuration's), it is held once and the other is computed in Machine/Ops.lean or Machine/Flags.lean. -/
namespace Sys2Proof.Machine

/-! ## Names -/

/-- The operating state, owned by the Start Unit (R73). -/
inductive OperatingState
  | starting | unconfigured | running | quiescing | quiesced
  deriving DecidableEq, Repr

/-- Why there is no usable journal (R2). -/
inductive AbsentReason
  | notConfigured | anchorLost | anchorMismatch
  deriving DecidableEq, Repr

/-- What a RESUME does (R63). -/
inductive ResumeAction
  | rollBack | completeCommit
  deriving DecidableEq, Repr

/-- The nine journal states (R1), with the absent reason present exactly in ABSENT (R2) and the resume action
present exactly in BROKEN (R63). -/
inductive JournalState
  | absent (reason : AbsentReason)
  | scanning | opened | draining | committing | rollingBack | undoing | formatting
  | broken (action : ResumeAction)
  deriving DecidableEq, Repr

/-- Copy A or B, of the anchor (R5) or of the stored configuration (R162). -/
inductive Copy
  | a | b
  deriving DecidableEq, Repr

/-- An anchor validity record (R9). -/
inductive AnchorRecord
  | valid (epoch : Word)
  | mismatched
  | invalid
  deriving DecidableEq, Repr

/-- One entry of the slot table (R13). -/
structure SlotEntry where
  target : Nat
  backLink : Option Nat
  side : Half
  deriving DecidableEq, Repr

/-- What the header of an occupied slot holds beside the fields of its slot-table entry (R22, R79): the image status,
true for BAD, and the sequence number. R13 keeps both out of the entry (log entry 17). -/
structure SlotHeader where
  imageBad : Bool
  sequence : Word
  deriving DecidableEq, Repr

/-- The long commands (R44). -/
inductive OpKind
  | save | release | undo | commit | rollback | resume | format | apply
  deriving DecidableEq, Repr

/-- Where a long operation comes from (R44). -/
inductive Origin
  | link | line | start
  deriving DecidableEq, Repr

/-- WAITING while the drain runs, then EXECUTING (R44). -/
inductive OpPhase
  | waiting | executing
  deriving DecidableEq, Repr

/-- The current long operation record (R44). -/
structure LongOp where
  kind : OpKind
  origin : Origin
  phase : OpPhase
  skip : Bool
  restored : Nat
  skipped : Nat
  discarded : Nat
  carried : Nat
  deriving DecidableEq, Repr

/-- The full policy (R19). -/
inductive FullPolicy
  | hold | refuse
  deriving DecidableEq, Repr

/-- The write acknowledgement mode, and the mark an entry keeps from its acceptance (R115, R116). -/
inductive AckMode
  | posted | completed
  deriving DecidableEq, Repr

/-- The mode of a region entry (R98). -/
inductive RegionMode
  | off | plain | journaled | readOnly
  deriving DecidableEq, Repr

/-- A region entry (R98). -/
structure RegionEntry where
  base : BitVec 24
  limit : BitVec 24
  mode : RegionMode
  deriving DecidableEq, Repr

/-- The configuration record (R160). Fields that a stored copy holds in more bytes than their stored width are
held at the byte group's width, because R201 reads the whole group (memory size, N_S, watermark). -/
structure ConfigRecord where
  signature : Word
  generation : Word
  memSize : BitVec 32
  base : BitVec 24
  nSlots : BitVec 16
  watermark : BitVec 16
  policy : FullPolicy
  ack : AckMode
  holdLimit : BitVec 16
  timeout : BitVec 8
  retries : BitVec 2
  alertMask : BitVec 6
  regions : Vector RegionEntry 16
  deriving DecidableEq, Repr

/-- A copy validity record (R163). -/
inductive CopyRecord
  | valid (generation : Word)
  | invalid
  deriving DecidableEq, Repr

/-- The seventeen fault kinds (R193, section 11.2), in the order of their codes (R203). -/
inductive FaultKind
  | notMapped | reservedArea | alignment | regionSplit | writeProtected | rowCheck | journalFull
  | journalUnavailable | holdExpired | memoryTimeout | memoryFail | imageCheck | notReady
  | configDegraded | anchorDegraded | ckptDropped | writesDroppedAtPowerFail
  deriving DecidableEq, Repr

/-- The block that files a fault record (R193). -/
inductive FaultSource
  | frontPortUnit | rowEngine | journalUnit | configurationUnit | controlLinkUnit | startUnit
  deriving DecidableEq, Repr

/-- A fault record (R193). -/
structure FaultRecord where
  kind : FaultKind
  source : FaultSource
  address : Option Address
  row : Option Nat
  slot : Option Nat
  epoch : Word
  posted : Bool
  partialDone : Bool
  deriving DecidableEq, Repr

/-- The refusal reasons (R180), in the order of their codes (R202). -/
inductive Reason
  | state | noJournal | invalidRegion | invalidField | invalidArgument | recordsPresent | stackFull
  | noSavepoint | queueHeld | frozen | invalidConfig | generationExhausted
  deriving DecidableEq, Repr

/-- The result of a long operation (R71). -/
inductive OpResult
  | done | empty | failed | refused
  deriving DecidableEq, Repr

/-- The fields of the completion record, with its overrun flag (R71, R185). -/
structure CompletionRecord where
  operation : OpKind
  origin : Origin
  result : OpResult
  reason : Option Reason
  epochAfter : Word
  restored : Nat
  skipped : Nat
  discarded : Nat
  carried : Nat
  fault : Option FaultKind
  overrun : Bool
  deriving DecidableEq, Repr

/-- The response buffer of the control link (R179): NONE, PENDING, or READY with one response frame. -/
inductive ResponseBuffer
  | none
  | pending
  | ready (frame : List Byte)
  deriving DecidableEq, Repr

/-! ## The front port -/

/-- A front-port request (R110). -/
inductive Request
  | read (address : Address) (beats : Nat)
  | write (address : Address) (beats : List Beat)
  deriving DecidableEq, Repr

/-- The response on the bus: OKAY or ERROR, and the data beats of a read (R111). -/
structure FrontResponse where
  okay : Bool
  beats : List Word
  deriving DecidableEq, Repr

/-- The pending read (R120). `taken` is set when the Row Engine takes it, which stops its hold timer (R122). -/
structure PendingRead where
  address : Address
  beats : Nat
  taken : Bool
  deriving DecidableEq, Repr

/-- The job state of a queue entry (R117). -/
inductive EntryState
  | notStarted | taken | spaceWait
  deriving DecidableEq, Repr

/-- A post-queue entry (R117). `timed` says that a completed entry's hold timer has not stopped (R122). -/
structure Entry where
  address : Address
  beats : List Beat
  number : Word
  mark : AckMode
  state : EntryState
  timed : Bool
  deriving DecidableEq, Repr

/-! ## The Row Engine -/

/-- The class of a row of a write job (R134). -/
inductive RowClass
  | full | part | untouched
  deriving DecidableEq, Repr

/-- The memory fault of a failed row operation (R152). -/
inductive MemFault
  | fail | timeout
  deriving DecidableEq, Repr

/-- What a job has read of a row (R130): the row with status GOOD or BAD, or the report that the read failed. -/
inductive RowRead
  | good (row : Row)
  | bad (row : Row)
  | failed
  deriving DecidableEq, Repr

/-- A row record of a job (R130). Bit j of `enables` is data byte j. -/
structure JobRow where
  row : Nat
  data : RowData
  enables : BitVec 16
  cls : RowClass
  needsRead : Bool
  needsRecord : Bool
  result : Option RowRead
  deriving DecidableEq, Repr

/-- The row operations of an append (R22). -/
inductive AppendStep
  | headerClear | imageWrite | headerWrite
  deriving DecidableEq, Repr

/-- The phase of a job (R130); IDLE is the absence of a job record. READING and WRITING name the row record
whose operation is out; APPENDING names the row record, the slot, the consumed sequence number and the step. -/
inductive JobPhase
  | reading (i : Nat)
  | appending (i : Nat) (slot : Nat) (sequence : Word) (step : AppendStep)
  | writing (i : Nat)
  | parked
  deriving DecidableEq, Repr

/-- The source of a job (R130). -/
inductive JobSource
  | pendingRead
  | queueHead (number : Word)
  deriving DecidableEq, Repr

/-- A job record (R130). -/
structure Job where
  source : JobSource
  request : Request
  mark : Option AckMode
  region : Fin 16
  mode : RegionMode
  frozen : Bool
  rows : List JobRow
  phase : JobPhase
  deriving DecidableEq, Repr

/-! ## The memory port -/

/-- The two requesters (R155). -/
inductive Requester
  | front | maint
  deriving DecidableEq, Repr

/-- A row operation (R148). -/
inductive RowOp
  | read (row : Nat)
  | write (row : Nat) (content : Row)
  deriving DecidableEq, Repr

/-- The operation in flight: its requester, its attempt number, the timeout and retry count fixed for it at the
grant (R154), and the outcome of its last attempt. -/
structure Flight where
  requester : Requester
  op : RowOp
  attempt : Nat
  timeout : BitVec 8
  retries : BitVec 2
  last : Option MemFault
  deriving DecidableEq, Repr

/-- The port state (chapter 8): IDLE, IN_FLIGHT or ABORTING. -/
inductive PortState
  | idle
  | inFlight (flight : Flight)
  | aborting (flight : Flight)
  deriving DecidableEq, Repr

/-! ## Work on MAINT -/

/-- Which anchor write a step belongs to: the one write of an advance (R25), the first or second of a wipe
(R27), the first or second of a format (R69). -/
inductive AnchorGoal
  | advance | wipeFirst | wipeSecond | formatFirst | formatSecond
  deriving DecidableEq, Repr

/-- The MAINT row operation that is waiting or in flight, by what it is for, with what the start or the long
operation has gathered so far. -/
inductive MaintTask
  /-- The configuration load reads row `i` of a copy (R164); `rows` are the copy's rows read so far and `first`
  is copy A's record, when VALID, while copy B is being read. -/
  | loadRow (copy : Copy) (i : Nat) (rows : List RowData) (first : Option ConfigRecord)
  /-- The start's anchor read (R78). -/
  | anchorRead (copy : Copy)
  /-- The recovery scan reads the header of slot `k` (R79); `accepted` and `headers` are what it has taken from the
  slots below. -/
  | scanHeader (k : Nat) (headers : List SlotHeader) (accepted : List SlotEntry)
  /-- The image read of a restore of slot `j` (R52). -/
  | restoreImage (j : Nat)
  /-- The target write of a restore of slot `j` (R52). -/
  | restoreTarget (j : Nat)
  /-- The wipe writes the header of slot `k`, for an advance (R27) or for a format (R68). -/
  | wipeHeader (k : Nat) (forFormat : Bool)
  /-- An anchor write (R25). -/
  | anchorWrite (goal : AnchorGoal) (copy : Copy) (epoch : Word)
  /-- The confirming read of an anchor write (R25). -/
  | anchorConfirm (goal : AnchorGoal) (copy : Copy) (epoch : Word)
  /-- A format reads an anchor (R68); `greatest` is the greatest epoch found so far. -/
  | formatAnchor (copy : Copy) (greatest : Word)
  /-- A format reads the header of slot `k` (R68). -/
  | formatHeader (k : Nat) (greatest : Word)
  /-- Step 0 of an APPLY's copy write: the slot 0 clear (R170). -/
  | slotZeroClear
  /-- Step 1: the closing clear (R170). -/
  | copyClear (copy : Copy)
  /-- Step 2: body row `i` (R170). -/
  | copyBody (copy : Copy) (i : Nat)
  /-- Step 3: the closing write (R170). -/
  | copyClose (copy : Copy)
  /-- Step 4: the confirmation reads row `i` (R170). -/
  | copyConfirm (copy : Copy) (i : Nat) (rows : List Row)
  deriving DecidableEq, Repr

/-! ## How a step can stop -/

/-- The faults of the model: none. Every command of the RL2240 has an effect on every state (a fault record is
state, in the log), so no meaning stops the machine. Nobody raises one (safe). -/
inductive Fault
  deriving DecidableEq, Repr

/-- The refusals of the model. -/
inductive Refusal
  /-- Raised by an arm of exec whose command has no meaning in the model; no arm raises it (safe). -/
  | notModelled (mnemonic : String)
  deriving DecidableEq, Repr

/-! ## The memory device -/

/-- The rows of the memory device, sorted by row number; a row that is not listed reads as
Config.unwrittenRow (log entry 1). -/
abbrev Memory := List (Nat × Row)

/-! ## The state -/

/-- The state of the part, with the memory device behind it and the commands waiting in front of it. -/
structure State where
  /-- The commands that wait, first in, first out. -/
  pending : List Instr
  /-- The part is held in reset (R74). -/
  inReset : Bool
  /-- The operating state (R73). -/
  operating : OperatingState
  /-- The level of PFW: true while asserted (R83). -/
  pfw : Bool
  /-- The level of CKPT as last seen: the reference of R187, and high after an edge. -/
  ckptHigh : Bool
  /-- The rows of the memory device (R91). -/
  mem : Memory
  /-- The journal state (R1). -/
  journal : JournalState
  /-- The current epoch, absent when there is none (R6). -/
  epoch : Option Word
  /-- The anchor validity record of copy A (R9). -/
  anchorA : AnchorRecord
  /-- The anchor validity record of copy B (R9). -/
  anchorB : AnchorRecord
  /-- The slot table, slot 0 first; its length is the tail (R13, R14). -/
  slots : List SlotEntry
  /-- The image status and the sequence number of each occupied slot, slot 0 first (R22, R79, log entry 17). -/
  slotHeaders : List SlotHeader
  /-- The row index, sorted by row number (R15). -/
  index : List (Nat × Nat)
  /-- The savepoint stack, top first (R28). -/
  stack : List Nat
  /-- The next sequence number (R16). -/
  nextSequence : Word
  /-- Its exhausted flag (R16). -/
  exhausted : Bool
  /-- The header mark (R17). -/
  headerMark : Nat
  /-- The header mark as R80 sets it when the recovery scan stops, N_S; none before that and after the recovery's end,
  where `headerMark` takes it (R17, R79) or an epoch advance has made it 0 (log entry 27). -/
  recoveryMark : Option Nat
  /-- The current long operation record (R44). -/
  longOp : Option LongOp
  /-- The MAINT row operation that is waiting or in flight, by purpose. -/
  maint : Option MaintTask
  /-- The active configuration (R160). -/
  active : Option ConfigRecord
  /-- The staging record (R166). -/
  staging : ConfigRecord
  /-- The copy validity record of copy A (R163). -/
  copyA : CopyRecord
  /-- The copy validity record of copy B (R163). -/
  copyB : CopyRecord
  /-- The active copy designation (R163). -/
  designation : Option Copy
  /-- The raw condition CONFIG_DEGRADED (R165, R195). -/
  configDegraded : Bool
  /-- A confirmed copy write waits for its activation (R172). -/
  activationDue : Bool
  /-- The freeze flags (R104). -/
  freeze : Vector Bool 16
  /-- The region of a FREEZE answered OK whose flag is deferred (R106). -/
  deferredFreeze : Option (Fin 16)
  /-- The held request (R110). -/
  held : Option Request
  /-- The pending read (R120). -/
  pendingRead : Option PendingRead
  /-- The post queue, oldest entry first (R118). -/
  queue : List Entry
  /-- The next acceptance number (R117). -/
  nextAcceptance : Word
  /-- The boundary mark (R125). -/
  mark : Option Word
  /-- The response given to the last request presented; none while its answer is owed (R111). -/
  frontResponse : Option FrontResponse
  /-- The Row Engine's job record; none in IDLE (R130). -/
  job : Option Job
  /-- The parked job (R138). -/
  parked : Option Job
  /-- The held mark of the pending read (R131). -/
  readHeld : Bool
  /-- The held mark of the head of the post queue (R131). -/
  headHeld : Bool
  /-- The port state, with the operation in flight (chapter 8). -/
  port : PortState
  /-- The waiting request of FRONT (R156). -/
  waitFront : Option RowOp
  /-- The waiting request of MAINT (R156). -/
  waitMaint : Option RowOp
  /-- The last-served requester (R156). -/
  lastServed : Requester
  /-- The retry counter (R153). -/
  retryCounter : BitVec 8
  /-- The response buffer (R179). -/
  response : ResponseBuffer
  /-- What data out carried in the last transfer (R176). -/
  linkOut : List Byte
  /-- The completion record; none when EMPTY (R185). -/
  completion : Option CompletionRecord
  /-- The CKPT pending latch: true when PENDING (R188). -/
  ckptLatch : Bool
  /-- The fault log, oldest record first (R192). -/
  log : List FaultRecord
  /-- The dropped counter (R192). -/
  dropped : BitVec 8
  /-- The alert mask in force (R196). -/
  alertMask : BitVec 6
  /-- The model's own counter of free choices made (log entry 2). -/
  freeCount : Nat
  deriving DecidableEq, Repr

/-- A region entry of a record with every field 0: mode OFF. -/
def RegionEntry.zero : RegionEntry := { base := 0#24, limit := 0#24, mode := .off }

/-- The staging record with every field 0 (R166). -/
def ConfigRecord.zero : ConfigRecord where
  signature := 0#32
  generation := 0#32
  memSize := 0#32
  base := 0#24
  nSlots := 0#16
  watermark := 0#16
  policy := .hold
  ack := .posted
  holdLimit := 0#16
  timeout := 0#8
  retries := 0#2
  alertMask := 0#6
  regions := Vector.replicate 16 RegionEntry.zero

/-- The part held in reset (R74), every block at its start values (R86, R129, R159, R191, section 1.11), with a
memory device in which nothing is written, PFW deasserted and CKPT low. START begins the start. -/
def State.reset : State where
  pending := []
  inReset := true
  operating := .starting
  pfw := false
  ckptHigh := false
  mem := []
  journal := .absent .notConfigured
  epoch := none
  anchorA := .invalid
  anchorB := .invalid
  slots := []
  slotHeaders := []
  index := []
  stack := []
  nextSequence := 0#32
  exhausted := false
  headerMark := 0
  recoveryMark := none
  longOp := none
  maint := none
  active := none
  staging := ConfigRecord.zero
  copyA := .invalid
  copyB := .invalid
  designation := none
  configDegraded := false
  activationDue := false
  freeze := Vector.replicate 16 false
  deferredFreeze := none
  held := none
  pendingRead := none
  queue := []
  nextAcceptance := 0#32
  mark := none
  frontResponse := none
  job := none
  parked := none
  readHeld := false
  headHeld := false
  port := .idle
  waitFront := none
  waitMaint := none
  lastServed := .front
  retryCounter := 0#8
  response := .none
  linkOut := []
  completion := none
  ckptLatch := false
  log := []
  dropped := 0#8
  alertMask := 0#6
  freeCount := 0

end Sys2Proof.Machine
end

