-- ==== Sys2Proof/Machine/Formats.lean ====
section
/-! DEFINITION. The layouts of chapter 12: header and anchor rows (R200), the configuration copy (R201), the codes
of the control link (R202), and the payloads' codes (R203). -/
namespace Sys2Proof.Machine

/-! ## Header and anchor rows (R200) -/

/-- The fields of a header row (R10). -/
structure Header where
  marker : BitVec 4
  linked : Bool
  imageBad : Bool
  epoch : Word
  sequence : Word
  target : BitVec 24
  backLink : Half
  side : Half
  deriving DecidableEq, Repr

/-- The header marker nibble, Ah (R200). -/
def headerMarker : BitVec 4 := 0xA#4

/-- A header row's 16 data bytes (R200); the unused bits are 0. -/
def Header.encode (h : Header) : RowData :=
  h.marker ++ BitVec.ofBool h.linked ++ BitVec.ofBool h.imageBad ++ 0#2 ++ h.epoch ++ h.sequence ++ h.target
    ++ h.backLink ++ h.side

/-- A header row's fields (R200); the unused bits are ignored. -/
def Header.decode (d : RowData) : Header where
  marker := d.extractLsb' 124 4
  linked := d.getLsbD 123
  imageBad := d.getLsbD 122
  epoch := d.extractLsb' 88 32
  sequence := d.extractLsb' 56 32
  target := d.extractLsb' 32 24
  backLink := d.extractLsb' 16 16
  side := d.extractLsb' 0 16

/-- The back-link of a header: present only when its flag is set (R10, R200). -/
def Header.link (h : Header) : Option Nat := if h.linked then some h.backLink.toNat else none

/-- The header row of a record (R22, R10). -/
def recordHeader (imageBad : Bool) (epoch sequence : Word) (target : Nat) (backLink : Option Nat) (side : Half) :
    Header where
  marker := headerMarker
  linked := backLink.isSome
  imageBad := imageBad
  epoch := epoch
  sequence := sequence
  target := BitVec.ofNat 24 target
  backLink := BitVec.ofNat 16 (backLink.getD 0)
  side := side

/-- A row reads as a header of some epoch: it is GOOD, its marker matches and its epoch is not 0 (R68). -/
def headerPresent (row : Nat) (r : Row) : Bool :=
  rowGood row r && (Header.decode r.data).marker == headerMarker && (Header.decode r.data).epoch != 0#32

/-- A header row is valid: also its target row is below the memory size (R11). -/
def headerValid (memSize row : Nat) (r : Row) : Bool :=
  headerPresent row r && (Header.decode r.data).target.toNat < memSize

/-- The anchor marker, 6B31D4E8h (R200). -/
def anchorMarker : Word := 0x6B31D4E8#32

/-- The fields of an anchor row (R7). -/
structure Anchor where
  marker : Word
  epoch : Word
  base : BitVec 24
  nSlots : BitVec 16
  deriving DecidableEq, Repr

/-- An anchor row's 16 data bytes (R200). -/
def Anchor.encode (a : Anchor) : RowData := a.marker ++ a.epoch ++ a.base ++ a.nSlots ++ 0#24

/-- An anchor row's fields (R200); bytes 13 to 15 are ignored. -/
def Anchor.decode (d : RowData) : Anchor where
  marker := d.extractLsb' 96 32
  epoch := d.extractLsb' 64 32
  base := d.extractLsb' 40 24
  nSlots := d.extractLsb' 24 16

/-- An anchor row that names an epoch: GOOD, marker matching, epoch not 0 (R8, R68). -/
def anchorPresent (row : Nat) (r : Row) : Bool :=
  rowGood row r && (Anchor.decode r.data).marker == anchorMarker && (Anchor.decode r.data).epoch != 0#32

/-- The classification of an anchor row read (R8). -/
def classifyAnchor (base : BitVec 24) (nSlots : BitVec 16) (row : Nat) (r : Row) : AnchorRecord :=
  if anchorPresent row r then
    if (Anchor.decode r.data).base = base && (Anchor.decode r.data).nSlots = nSlots then
      .valid (Anchor.decode r.data).epoch
    else .mismatched
  else .invalid

/-! ## Codes of the enumerated fields (R202) -/

/-- HOLD 0, REFUSE 1. -/
def FullPolicy.code : FullPolicy → BitVec 1
  | .hold => 0#1
  | .refuse => 1#1

def FullPolicy.ofCode (c : BitVec 1) : FullPolicy := if c = 0#1 then .hold else .refuse

/-- POSTED 0, COMPLETED 1. -/
def AckMode.code : AckMode → BitVec 1
  | .posted => 0#1
  | .completed => 1#1

def AckMode.ofCode (c : BitVec 1) : AckMode := if c = 0#1 then .posted else .completed

/-- OFF 0, PLAIN 1, JOURNALED 2, READ_ONLY 3. -/
def RegionMode.code : RegionMode → BitVec 2
  | .off => 0#2
  | .plain => 1#2
  | .journaled => 2#2
  | .readOnly => 3#2

def RegionMode.ofCode (c : BitVec 2) : RegionMode :=
  if c = 0#2 then .off else if c = 1#2 then .plain else if c = 2#2 then .journaled else .readOnly

/-! ## The configuration copy (R201) -/

/-- The signature, 3D94A07Ch (R201). -/
def configSignature : Word := 0x3D94A07C#32

/-- The first row of a copy: 0 for A, 16 for B (R162). -/
def Copy.firstRow : Copy → Nat
  | .a => 0
  | .b => 16

/-- The closing row of a copy (R160). -/
def Copy.closingRow (c : Copy) : Nat := c.firstRow + 15

def Copy.other : Copy → Copy
  | .a => .b
  | .b => .a

/-- The region modes, entry 0 in the most significant two bits (R201). -/
def regionModes (c : ConfigRecord) : BitVec 32 :=
  c.regions.toList.foldl (fun acc e => (acc <<< 2) ||| e.mode.code.setWidth 32) 0#32

/-- The region run: 96 bytes, base and limit row of entry 0 first (R201). -/
def regionRun (c : ConfigRecord) : BitVec 768 :=
  c.regions.toList.foldl (fun acc e => (acc <<< 48) ||| (e.base ++ e.limit).setWidth 768) 0#768

/-- Bytes 0 to 7 of row i of a copy (R201). -/
def configFields (c : ConfigRecord) (i : Nat) : BitVec 64 :=
  if i = 0 then
    c.memSize ++ c.base ++ (0#4 ++ c.retries ++ c.ack.code ++ c.policy.code : BitVec 8)
  else if i = 1 then
    c.nSlots ++ c.watermark ++ c.holdLimit ++ c.timeout ++ (0#2 ++ c.alertMask : BitVec 8)
  else if i = 2 then regionModes c ++ 0#32
  else if i < 15 then (regionRun c).extractLsb' (64 * (14 - i)) 64
  else c.signature ++ c.generation

/-- Row i of a copy: bytes 0 to 7 and their complement (section 12.2). -/
def configRowData (c : ConfigRecord) (i : Nat) : RowData := configFields c i ++ ~~~ (configFields c i)

/-- The complement check of one row: all eight data bytes against their complements (R201). -/
def complementHolds (d : RowData) : Bool := d.extractLsb' 0 64 == ~~~ (d.extractLsb' 64 64)

/-- Bytes 0 to 7 of row i of a copy that was read. -/
def copyFields (rows : List RowData) (i : Nat) : BitVec 64 := ((rows[i]?).getD 0#128).extractLsb' 64 64

/-- The region run of a copy that was read: rows 3 to 14 in order (R201). -/
def copyRun (rows : List RowData) : BitVec 768 :=
  (List.range 12).foldl (fun acc i => (acc <<< 64) ||| (copyFields rows (i + 3)).setWidth 768) 0#768

/-- Region entry e of a copy that was read (R201). -/
def copyRegion (rows : List RowData) (e : Nat) : RegionEntry where
  base := (copyRun rows).extractLsb' (48 * (15 - e) + 24) 24
  limit := (copyRun rows).extractLsb' (48 * (15 - e)) 24
  mode := RegionMode.ofCode ((copyFields rows 2).extractLsb' (32 + 2 * (15 - e)) 2)

/-- The record that the 16 rows of a copy spell (R201). -/
def decodeRecord (rows : List RowData) : ConfigRecord where
  memSize := (copyFields rows 0).extractLsb' 32 32
  base := (copyFields rows 0).extractLsb' 8 24
  retries := (copyFields rows 0).extractLsb' 2 2
  ack := AckMode.ofCode ((copyFields rows 0).extractLsb' 1 1)
  policy := FullPolicy.ofCode ((copyFields rows 0).extractLsb' 0 1)
  nSlots := (copyFields rows 1).extractLsb' 48 16
  watermark := (copyFields rows 1).extractLsb' 32 16
  holdLimit := (copyFields rows 1).extractLsb' 16 16
  timeout := (copyFields rows 1).extractLsb' 8 8
  alertMask := (copyFields rows 1).extractLsb' 0 6
  signature := (copyFields rows 15).extractLsb' 32 32
  generation := (copyFields rows 15).extractLsb' 0 32
  regions := #v[copyRegion rows 0, copyRegion rows 1, copyRegion rows 2, copyRegion rows 3, copyRegion rows 4,
    copyRegion rows 5, copyRegion rows 6, copyRegion rows 7, copyRegion rows 8, copyRegion rows 9,
    copyRegion rows 10, copyRegion rows 11, copyRegion rows 12, copyRegion rows 13, copyRegion rows 14,
    copyRegion rows 15]

/-! ## Validation (R99, R161) -/

/-- The number of rows of the journal area, 2 + 2·N_S, or 0 when N_S is 0 (R5). -/
def journalRows (nSlots : Nat) : Nat := if nSlots = 0 then 0 else 2 + 2 * nSlots

/-- A row lies in the journal area of a configuration (R5, R97). -/
def ConfigRecord.inJournalArea (c : ConfigRecord) (row : Nat) : Bool :=
  c.base.toNat ≤ row && row < c.base.toNat + journalRows c.nSlots.toNat

/-- Two runs of rows, given by first and last row, share no row. -/
def runsApart (first last first' last' : Nat) : Bool := last < first' || last' < first

/-- Conditions 1 to 4 and 6 of R99 for one entry. -/
def regionAloneValid (c : ConfigRecord) (e : RegionEntry) : Bool :=
  e.mode == .off ||
    (e.base.toNat ≤ e.limit.toNat && e.limit.toNat < c.memSize.toNat && 32 ≤ e.base.toNat
      && (c.nSlots == 0#16 ||
        runsApart e.base.toNat e.limit.toNat c.base.toNat (c.base.toNat + 1 + 2 * c.nSlots.toNat))
      && (e.mode != .journaled || (16 ≤ c.nSlots.toNat && c.nSlots.toNat ≤ 4096)))

/-- Condition 5 of R99: no two entries other than OFF ones share a row. -/
def regionsApart : List RegionEntry → Bool
  | [] => true
  | e :: rest =>
    rest.all (fun f => e.mode == .off || f.mode == .off ||
      runsApart e.base.toNat e.limit.toNat f.base.toNat f.limit.toNat) && regionsApart rest

/-- The region entries of a record are valid (R99). -/
def regionsValid (c : ConfigRecord) : Bool :=
  c.regions.toList.all (regionAloneValid c) && regionsApart c.regions.toList

/-- A configuration record passes validation (R161). With N_S 0 the watermark is not checked, not even against its 13
bits, of which R201 says that a value above a field's range fails validation (the model's choice between R161 and R201,
log entry 37). -/
def ConfigRecord.valid (c : ConfigRecord) : Bool :=
  64 ≤ c.memSize.toNat && c.memSize.toNat ≤ 16777216
    && (c.nSlots == 0#16 ||
      (16 ≤ c.nSlots.toNat && c.nSlots.toNat ≤ 4096 && 32 ≤ c.base.toNat
        && c.base.toNat + 1 + 2 * c.nSlots.toNat < c.memSize.toNat
        && 1 ≤ c.watermark.toNat && c.watermark.toNat ≤ c.nSlots.toNat))
    && c.timeout != 0#8
    && regionsValid c

/-- The record of a copy whose 16 rows read GOOD, when the copy is VALID (R162): signature, complements and
validation. -/
def classifyCopy (rows : List RowData) : Option ConfigRecord :=
  if (decodeRecord rows).signature = configSignature && rows.all complementHolds && (decodeRecord rows).valid then
    some (decodeRecord rows)
  else none

/-! ## Field identifiers (R202) -/

/-- The value of the field an identifier names, right-aligned in 32 bits; none when it names no field. -/
def fieldValue (c : ConfigRecord) (identifier : Byte) : Option Word :=
  match identifier.toNat with
  | 0x00 => some c.signature
  | 0x01 => some c.generation
  | 0x02 => some c.memSize
  | 0x03 => some (c.base.setWidth 32)
  | 0x04 => some (c.nSlots.setWidth 32)
  | 0x05 => some (c.watermark.setWidth 32)
  | 0x06 => some (c.policy.code.setWidth 32)
  | 0x07 => some (c.ack.code.setWidth 32)
  | 0x08 => some (c.holdLimit.setWidth 32)
  | 0x09 => some (c.timeout.setWidth 32)
  | 0x0A => some (c.retries.setWidth 32)
  | 0x0B => some (c.alertMask.setWidth 32)
  | n =>
    if 0x40 ≤ n ∧ n < 0x50 then (c.regions[n - 0x40]?).map fun e => e.base.setWidth 32
    else if 0x50 ≤ n ∧ n < 0x60 then (c.regions[n - 0x50]?).map fun e => e.limit.setWidth 32
    else if 0x60 ≤ n ∧ n < 0x70 then (c.regions[n - 0x60]?).map fun e => e.mode.code.setWidth 32
    else none

/-- The stored width of the field an identifier names, for a field CFG_STAGE may set; none when it names no
field, or the signature or the generation (R160, R167). -/
def stagedWidth (identifier : Byte) : Option Nat :=
  match identifier.toNat with
  | 0x02 => some 25
  | 0x03 => some 24
  | 0x04 => some 13
  | 0x05 => some 13
  | 0x06 => some 1
  | 0x07 => some 1
  | 0x08 => some 16
  | 0x09 => some 8
  | 0x0A => some 2
  | 0x0B => some 6
  | n =>
    if 0x40 ≤ n ∧ n < 0x60 then some 24
    else if 0x60 ≤ n ∧ n < 0x70 then some 2
    else none

/-- Region entry `e` of a record changed by `f`. -/
def ConfigRecord.changeRegion (c : ConfigRecord) (e : Nat) (f : RegionEntry → RegionEntry) : ConfigRecord :=
  match c.regions[e]? with
  | some r => { c with regions := c.regions.setIfInBounds e (f r) }
  | none => c

/-- The record with the named field set; unchanged for an identifier that CFG_STAGE may not set. -/
def setField (c : ConfigRecord) (identifier : Byte) (v : Word) : ConfigRecord :=
  match identifier.toNat with
  | 0x02 => { c with memSize := v }
  | 0x03 => { c with base := v.setWidth 24 }
  | 0x04 => { c with nSlots := v.setWidth 16 }
  | 0x05 => { c with watermark := v.setWidth 16 }
  | 0x06 => { c with policy := FullPolicy.ofCode (v.setWidth 1) }
  | 0x07 => { c with ack := AckMode.ofCode (v.setWidth 1) }
  | 0x08 => { c with holdLimit := v.setWidth 16 }
  | 0x09 => { c with timeout := v.setWidth 8 }
  | 0x0A => { c with retries := v.setWidth 2 }
  | 0x0B => { c with alertMask := v.setWidth 6 }
  | n =>
    if 0x40 ≤ n ∧ n < 0x50 then c.changeRegion (n - 0x40) fun e => { e with base := v.setWidth 24 }
    else if 0x50 ≤ n ∧ n < 0x60 then c.changeRegion (n - 0x50) fun e => { e with limit := v.setWidth 24 }
    else if 0x60 ≤ n ∧ n < 0x70 then
      c.changeRegion (n - 0x60) fun e => { e with mode := RegionMode.ofCode (v.setWidth 2) }
    else c

/-! ## Response statuses, reasons and payload codes (R202, R203) -/

/-- The statuses of a response frame (R180), coded 00h to 06h (R202). -/
inductive Status
  | ok | started | busy | refused | frameError | unknownCommand | noResponse
  deriving DecidableEq, Repr

def Status.code : Status → Byte
  | .ok => 0x00#8
  | .started => 0x01#8
  | .busy => 0x02#8
  | .refused => 0x03#8
  | .frameError => 0x04#8
  | .unknownCommand => 0x05#8
  | .noResponse => 0x06#8

def Reason.code : Reason → Byte
  | .state => 0x01#8
  | .noJournal => 0x02#8
  | .invalidRegion => 0x03#8
  | .invalidField => 0x04#8
  | .invalidArgument => 0x05#8
  | .recordsPresent => 0x06#8
  | .stackFull => 0x07#8
  | .noSavepoint => 0x08#8
  | .queueHeld => 0x09#8
  | .frozen => 0x0A#8
  | .invalidConfig => 0x0B#8
  | .generationExhausted => 0x0C#8

/-- A response frame: status byte, payload, and the frame CRC over both (R177, R180). -/
def responseFrame (status : Status) (payload : List Byte) : List Byte :=
  status.code :: payload ++ [frameCrc (status.code :: payload)]

/-- The lead byte, C3h (R202). -/
def leadByte : Byte := 0xC3#8

/-- A 16-bit field as two bytes, most significant first. -/
def bytes2 (v : Half) : List Byte := [v.extractLsb' 8 8, v.extractLsb' 0 8]

/-- A 24-bit field as three bytes, most significant first. -/
def bytes3 (v : BitVec 24) : List Byte := [v.extractLsb' 16 8, v.extractLsb' 8 8, v.extractLsb' 0 8]

/-- A 32-bit field as four bytes, most significant first. -/
def bytes4 (v : Word) : List Byte :=
  [v.extractLsb' 24 8, v.extractLsb' 16 8, v.extractLsb' 8 8, v.extractLsb' 0 8]

/-- A byte whose bit n is the n-th of eight flags, bit 0 first. -/
def flagByte (b0 b1 b2 b3 b4 b5 b6 b7 : Bool) : Byte :=
  BitVec.ofBool b7 ++ BitVec.ofBool b6 ++ BitVec.ofBool b5 ++ BitVec.ofBool b4 ++ BitVec.ofBool b3
    ++ BitVec.ofBool b2 ++ BitVec.ofBool b1 ++ BitVec.ofBool b0

def FaultKind.code : FaultKind → Byte
  | .notMapped => 0x01#8
  | .reservedArea => 0x02#8
  | .alignment => 0x03#8
  | .regionSplit => 0x04#8
  | .writeProtected => 0x05#8
  | .rowCheck => 0x06#8
  | .journalFull => 0x07#8
  | .journalUnavailable => 0x08#8
  | .holdExpired => 0x09#8
  | .memoryTimeout => 0x0A#8
  | .memoryFail => 0x0B#8
  | .imageCheck => 0x0C#8
  | .notReady => 0x0D#8
  | .configDegraded => 0x0E#8
  | .anchorDegraded => 0x0F#8
  | .ckptDropped => 0x10#8
  | .writesDroppedAtPowerFail => 0x11#8

def FaultSource.code : FaultSource → Byte
  | .frontPortUnit => 1#8
  | .rowEngine => 2#8
  | .journalUnit => 3#8
  | .configurationUnit => 4#8
  | .controlLinkUnit => 5#8
  | .startUnit => 6#8

/-- The command codes 40h to 47h (R202), which code the operation in payloads (R203). -/
def OpKind.code : OpKind → Byte
  | .save => 0x40#8
  | .release => 0x41#8
  | .undo => 0x42#8
  | .commit => 0x43#8
  | .rollback => 0x44#8
  | .format => 0x45#8
  | .resume => 0x46#8
  | .apply => 0x47#8

def Origin.code : Origin → Byte
  | .link => 1#8
  | .line => 2#8
  | .start => 3#8

def OpPhase.code : OpPhase → Byte
  | .waiting => 1#8
  | .executing => 2#8

def OpResult.code : OpResult → Byte
  | .done => 1#8
  | .empty => 2#8
  | .failed => 3#8
  | .refused => 4#8

def OperatingState.code : OperatingState → Byte
  | .starting => 0#8
  | .unconfigured => 1#8
  | .running => 2#8
  | .quiescing => 3#8
  | .quiesced => 4#8

def JournalState.code : JournalState → Byte
  | .absent _ => 0#8
  | .scanning => 1#8
  | .opened => 2#8
  | .draining => 3#8
  | .committing => 4#8
  | .rollingBack => 5#8
  | .undoing => 6#8
  | .formatting => 7#8
  | .broken _ => 8#8

/-- The absent reason's code, 0 when the journal is not ABSENT (R203). -/
def JournalState.absentCode : JournalState → BitVec 4
  | .absent .notConfigured => 1#4
  | .absent .anchorLost => 2#4
  | .absent .anchorMismatch => 3#4
  | .scanning | .opened | .draining | .committing | .rollingBack | .undoing | .formatting | .broken _ => 0#4

/-- The resume action's code, 0 when the journal is not BROKEN (R203). -/
def JournalState.actionCode : JournalState → BitVec 4
  | .broken .rollBack => 1#4
  | .broken .completeCommit => 2#4
  | .absent _ | .scanning | .opened | .draining | .committing | .rollingBack | .undoing | .formatting => 0#4

def AnchorRecord.code : AnchorRecord → BitVec 2
  | .invalid => 0#2
  | .valid _ => 1#2
  | .mismatched => 2#2

/-- The epoch of a VALID anchor record, and 0 of another (R203). -/
def AnchorRecord.epochOrZero : AnchorRecord → Word
  | .valid e => e
  | .mismatched => 0#32
  | .invalid => 0#32

/-- The generation of a VALID copy record, and 0 of another (R203). -/
def CopyRecord.generationOrZero : CopyRecord → Word
  | .valid g => g
  | .invalid => 0#32

def CopyRecord.isValid : CopyRecord → Bool
  | .valid _ => true
  | .invalid => false

/-- The designation's code: 0 none, 1 A, 2 B (R203). -/
def designationCode : Option Copy → BitVec 2
  | none => 0#2
  | some .a => 1#2
  | some .b => 2#2

/-- The FAULT_POP payload (R194, R203): the popped record if any, the dropped counter and the records left. The bits of byte 3 that R203 does not name
are 0 (the model's choice, log entry 40). -/
def faultPayload (record : Option FaultRecord) (dropped : Byte) (left : Nat) : List Byte :=
  match record with
  | none => List.replicate 17 0#8 ++ [dropped, BitVec.ofNat 8 left]
  | some f =>
    [1#8, f.kind.code, f.source.code,
      flagByte f.address.isSome f.row.isSome f.slot.isSome f.posted f.partialDone false false false]
      ++ bytes4 ((f.address.getD 0#28).setWidth 32) ++ bytes3 (BitVec.ofNat 24 (f.row.getD 0))
      ++ bytes2 (BitVec.ofNat 16 (f.slot.getD 0)) ++ bytes4 f.epoch ++ [dropped, BitVec.ofNat 8 left]

/-- The COMPLETION payload (R186, R203). The bits of byte 5 that R203 does not name are 0 (the model's choice, log
entry 40). -/
def completionPayload : Option CompletionRecord → List Byte
  | none => List.replicate 17 0#8
  | some c =>
    [1#8, c.operation.code, c.origin.code, c.result.code, (c.reason.map Reason.code).getD 0#8,
      flagByte c.overrun false false false false false false false]
      ++ bytes4 c.epochAfter ++ bytes2 (BitVec.ofNat 16 c.restored) ++ bytes2 (BitVec.ofNat 16 c.skipped)
      ++ [BitVec.ofNat 8 c.discarded, BitVec.ofNat 8 c.carried, (c.fault.map FaultKind.code).getD 0#8]

/-- The IDENT payload: vendor code 4E17h, part code 2240h, revision 01h (R202). -/
def identPayload : List Byte := [0x4E#8, 0x17#8, 0x22#8, 0x40#8, 0x01#8]

end Sys2Proof.Machine
end

