-- ==== Sys2Proof/Machine/Ops.lean ====
section
/-! DEFINITION. The shared operations over the state: the memory device's rows, the fault log, the row index, the
slot table, the journal area's geometry, the region lookup, and the order of acceptance numbers. -/
namespace Sys2Proof.Machine

/-! ## The memory device -/

/-- The row at a row number: the listed row, or Config.unwrittenRow. -/
def Memory.read : Memory → Nat → Row
  | [], _ => Config.unwrittenRow
  | (k, r) :: rest, n => if k = n then r else Memory.read rest n

/-- The list with no entry for row `n`. -/
def Memory.erase : Memory → Nat → Memory
  | [], _ => []
  | (k, r) :: rest, n => if k = n then rest else (k, r) :: Memory.erase rest n

/-- The list with row `n` holding `r`, in order. -/
def Memory.insert : Memory → Nat → Row → Memory
  | [], n, r => [(n, r)]
  | (k, x) :: rest, n, r =>
    if n < k then (n, r) :: (k, x) :: rest
    else if k = n then (n, r) :: rest
    else (k, x) :: Memory.insert rest n r

/-- Row `n` written whole (R91). Writing what an unlisted row reads as removes its entry. -/
def Memory.write (m : Memory) (n : Nat) (r : Row) : Memory :=
  if r = Config.unwrittenRow then m.erase n else m.insert n r

/-- Every key of the list is greater than `k`. -/
def Memory.above (k : Nat) : Memory → Bool
  | [] => true
  | (n, _) :: rest => k < n && Memory.above k rest

/-- The canonical form: row numbers strictly rising, and no entry equal to what an unlisted row reads as. -/
def Memory.wf : Memory → Bool
  | [] => true
  | (n, r) :: rest => r != Config.unwrittenRow && Memory.above n rest && Memory.wf rest

/-- What a write attempt that did not complete leaves in row `n` (R149, R159). -/
def residueRow (n : Nat) (former new : Row) : Residue → Row
  | .former => former
  | .new => new
  | .torn data damage =>
    { data := data, side := checkValue n data ^^^ (if damage = 0#16 then 1#16 else damage) }

/-! ## Small readings of the state -/

/-- The current epoch, or 0 when there is none (R6). -/
def State.epochOrZero (s : State) : Word := s.epoch.getD 0#32

/-- The tail: the number of occupied slots (R14). -/
def State.tail (s : State) : Nat := s.slots.length

/-- The journal base row of the active configuration. -/
def State.base (s : State) : BitVec 24 := (s.active.map ConfigRecord.base).getD 0#24

/-- The slot count field of the active configuration, 0 when there is none. -/
def State.nSlots (s : State) : BitVec 16 := (s.active.map ConfigRecord.nSlots).getD 0#16

/-- The memory size of the active configuration, 0 when none is in force (R95). -/
def State.memSize (s : State) : Nat := (s.active.map fun c => c.memSize.toNat).getD 0

/-- The row of anchor copy A is b, of copy B b + 1 (R5). -/
def State.anchorRow (s : State) : Copy → Nat
  | .a => s.base.toNat
  | .b => s.base.toNat + 1

/-- The header row of slot k, b + 2 + 2k (R5). -/
def State.headerRow (s : State) (k : Nat) : Nat := s.base.toNat + 2 + 2 * k

/-- The image row of slot k, b + 3 + 2k (R5). -/
def State.imageRow (s : State) (k : Nat) : Nat := s.base.toNat + 3 + 2 * k

/-- The current segment start: the top of the savepoint stack, or 0 (R29). -/
def State.segmentStart (s : State) : Nat := s.stack.headD 0

/-- The anchor validity record of a copy (R9). -/
def State.anchor (s : State) : Copy → AnchorRecord
  | .a => s.anchorA
  | .b => s.anchorB

def State.setAnchor (s : State) (c : Copy) (r : AnchorRecord) : State :=
  match c with
  | .a => { s with anchorA := r }
  | .b => { s with anchorB := r }

/-- The copy validity record of a configuration copy set (R163). -/
def State.setCopy (s : State) (c : Copy) (r : CopyRecord) : State :=
  match c with
  | .a => { s with copyA := r }
  | .b => { s with copyB := r }

/-- A change of journal state, which also clears the Row Engine's held marks (R131). -/
def State.setJournal (s : State) (j : JournalState) : State :=
  { s with journal := j, readHeld := false, headHeld := false }

/-- The start's configuration load has ended (R76): STARTING is left, or a configuration is installed. -/
def State.loadEnded (s : State) : Bool := s.operating != .starting || s.active.isSome

/-- Acceptance is open: RUNNING, or STARTING once the load has installed a configuration (R114). -/
def State.acceptanceOpen (s : State) : Bool :=
  !s.inReset && (s.operating == .running || (s.operating == .starting && s.active.isSome))

/-- The acknowledgement mode in force (R116). -/
def State.ackMode (s : State) : AckMode := (s.active.map ConfigRecord.ack).getD .posted

/-- The hold limit in force in µs; 0 is no limit, and none is in force without a configuration (R122, R129). -/
def State.holdLimit (s : State) : BitVec 16 := (s.active.map ConfigRecord.holdLimit).getD 0#16

/-- The memory timeout in force: the start timing of 64 µs until a configuration is active (R154). -/
def State.timeoutInForce (s : State) : BitVec 8 := (s.active.map ConfigRecord.timeout).getD 64#8

/-- The retry count in force: the start timing of 3 until a configuration is active (R154). -/
def State.retriesInForce (s : State) : BitVec 2 := (s.active.map ConfigRecord.retries).getD 3#2

/-- An 8-bit counter that stays at 255 (R153, R192). -/
def countUp (n : BitVec 8) : BitVec 8 := if n = 255#8 then n else n + 1#8

/-! ## The fault log (R192) -/

/-- A block files a fault record: it joins a log with room at its end, and is dropped and counted otherwise. -/
def State.file (s : State) (f : FaultRecord) : State :=
  if s.log.length < 16 then { s with log := s.log ++ [f] } else { s with dropped := countUp s.dropped }

/-- Two filings that arrive together are taken in either order (R192, log entry 2). -/
def State.fileTogether (s : State) (f g : FaultRecord) : State :=
  if Config.freeChoice s.freeCount then
    { (s.file f).file g with freeCount := s.freeCount + 1 }
  else { (s.file g).file f with freeCount := s.freeCount + 1 }

/-- The fault kind of a memory fault (R152). -/
def MemFault.kind : MemFault → FaultKind
  | .fail => .memoryFail
  | .timeout => .memoryTimeout

/-- A fault record of the Journal Unit: no byte address, both flags clear, the current epoch (R25, R53). -/
def State.journalFault (s : State) (kind : FaultKind) (row : Nat) (slot : Option Nat) : FaultRecord where
  kind := kind
  source := .journalUnit
  address := none
  row := some row
  slot := slot
  epoch := s.epochOrZero
  posted := false
  partialDone := false

/-- A fault record of the Configuration Unit (R164, R165, R170): no byte address and no slot. That a failed slot 0
clear's record has no slot either is the model's choice (log entry 31). -/
def configFault (kind : FaultKind) (row : Nat) (epoch : Word) : FaultRecord where
  kind := kind
  source := .configurationUnit
  address := none
  row := some row
  slot := none
  epoch := epoch
  posted := false
  partialDone := false

/-- The CKPT_DROPPED record (R190). -/
def State.ckptFault (s : State) : FaultRecord where
  kind := .ckptDropped
  source := .controlLinkUnit
  address := none
  row := none
  slot := none
  epoch := s.epochOrZero
  posted := false
  partialDone := false

/-! ## The row index (R15) -/

/-- The slot the index names for a row. -/
def indexGet : List (Nat × Nat) → Nat → Option Nat
  | [], _ => none
  | (r, k) :: rest, row => if r = row then some k else indexGet rest row

/-- The index without a row's entry. -/
def indexErase : List (Nat × Nat) → Nat → List (Nat × Nat)
  | [], _ => []
  | (r, k) :: rest, row => if r = row then rest else (r, k) :: indexErase rest row

/-- The index with a row's entry set, kept in row order. -/
def indexSet : List (Nat × Nat) → Nat → Nat → List (Nat × Nat)
  | [], row, slot => [(row, slot)]
  | (r, k) :: rest, row, slot =>
    if row < r then (row, slot) :: (r, k) :: rest
    else if r = row then (row, slot) :: rest
    else (r, k) :: indexSet rest row slot

/-- The entry for a row after a repair: the back-link when there is one, no entry otherwise (R35). -/
def indexRepair (index : List (Nat × Nat)) (row : Nat) : Option Nat → List (Nat × Nat)
  | some b => indexSet index row b
  | none => indexErase index row

/-- The highest slot, counting from slot `k`, whose record is for a row. -/
def newestFrom (k : Nat) : List SlotEntry → Nat → Option Nat
  | [], _ => none
  | e :: rest, row =>
    match newestFrom (k + 1) rest row with
    | some j => some j
    | none => if e.target = row then some k else none

/-- The highest slot of a slot table whose record is for a row (R15, R79). -/
def newestSlot (slots : List SlotEntry) (row : Nat) : Option Nat := newestFrom 0 slots row

/-- The index of a run of accepted slots: each row's highest slot (R79). -/
def indexFrom (k : Nat) (index : List (Nat × Nat)) : List SlotEntry → List (Nat × Nat)
  | [] => index
  | e :: rest => indexFrom (k + 1) (indexSet index e.target k) rest

/-- The segment rule (R18): a row needs a record when the index has no entry for it, or names a slot below the
current segment start. -/
def State.needsRecord (s : State) (row : Nat) : Bool :=
  match indexGet s.index row with
  | none => true
  | some k => k < s.segmentStart

/-- The space check (R19): tail + k is at most N_S, and at least k sequence numbers remain. -/
def State.spaceGranted (s : State) (k : Nat) : Bool :=
  s.tail + k ≤ s.nSlots.toNat && !s.exhausted && s.nextSequence.toNat + (k - 1) ≤ 4294967295

/-- The index holds a row of a region entry (R15, R105). -/
def State.recordsInRegion (s : State) (e : RegionEntry) : Bool :=
  s.index.any fun p => e.base.toNat ≤ p.1 && p.1 ≤ e.limit.toNat

/-- An append consumes the next sequence number as it begins (R16). -/
def State.consumeSequence (s : State) : State :=
  if s.nextSequence = maxWord then { s with exhausted := true }
  else { s with nextSequence := s.nextSequence + 1#32 }

/-- An append's record joins the slot table: the entry with what its header holds beside it, the row index and with
them the tail (R22). -/
def State.addRecord (s : State) (row : Nat) (side : Half) (header : SlotHeader) : State :=
  { s with
    slots := s.slots ++ [{ target := row, backLink := indexGet s.index row, side := side }]
    slotHeaders := s.slotHeaders ++ [header]
    index := indexSet s.index row s.tail }

/-- The newest slot leaves the table, its row's index entry repaired from the back-link (R35, R52). -/
def State.dropRecord (s : State) : State :=
  match s.slots.getLast? with
  | none => s
  | some e =>
    { s with
      slots := s.slots.dropLast, slotHeaders := s.slotHeaders.dropLast
      index := indexRepair s.index e.target e.backLink }

/-- The slot table, the row index, the tail and the savepoint stack become empty (R26, R67). -/
def State.emptyJournal (s : State) : State := { s with slots := [], slotHeaders := [], index := [], stack := [] }

/-- The next sequence number and the header mark return to 0, the exhausted flag clear (R16, R17). -/
def State.restartSequence (s : State) : State :=
  { s with nextSequence := 0#32, exhausted := false, headerMark := 0 }

/-- The header mark counts slot k once its header write is issued (R17). -/
def State.raiseHeaderMark (s : State) (k : Nat) : State := { s with headerMark := max s.headerMark (k + 1) }

/-! ## The Region Map (R98, R101, R102) -/

/-- The outcome of a lookup of one row (R101). -/
inductive RowOutcome
  | reserved
  | notMapped
  | entry (i : Fin 16)
  deriving DecidableEq, Repr

/-- The outcome of a whole request (R102); the refusing outcomes name the row of their fault record. -/
inductive RequestOutcome
  | reserved (row : Nat)
  | notMapped (row : Nat)
  | split (row : Nat)
  | entry (i : Fin 16)
  deriving DecidableEq, Repr

/-- The region entries in force: the active configuration's, or 16 OFF entries (R100). Their base and limit rows of 0
are the model's choice, which nothing reads (log entry 36). -/
def State.regions (s : State) : Vector RegionEntry 16 :=
  (s.active.map ConfigRecord.regions).getD (Vector.replicate 16 RegionEntry.zero)

/-- An entry of mode other than OFF covers the rows from its base row to its limit row (R98). -/
def RegionEntry.covers (e : RegionEntry) (row : Nat) : Bool :=
  e.mode != .off && e.base.toNat ≤ row && row ≤ e.limit.toNat

/-- The first of the region indexes whose entry covers a row. -/
def State.coveringEntry (s : State) (row : Nat) : List (Fin 16) → Option (Fin 16)
  | [] => none
  | i :: rest => if (s.regions[i]).covers row then some i else s.coveringEntry row rest

/-- The region indexes in order. -/
def regionIndexes : List (Fin 16) := [0, 1, 2, 3, 4, 5, 6, 7, 8, 9, 10, 11, 12, 13, 14, 15]

/-- A row of the configuration area (R96) or of the journal area of the active configuration (R97). -/
def State.reservedRow (s : State) (row : Nat) : Bool :=
  row < 32 || (s.active.map fun c => c.inJournalArea row).getD false

/-- The lookup of one row (R101). -/
def State.lookup (s : State) (row : Nat) : RowOutcome :=
  if s.reservedRow row then .reserved
  else if s.memSize ≤ row then .notMapped
  else match s.coveringEntry row regionIndexes with
    | some i => .entry i
    | none => .notMapped

/-- The outcome of a request that covers one row, or two (R102). -/
def State.requestOutcome (s : State) (first : Nat) (second : Option Nat) : RequestOutcome :=
  match second with
  | none =>
    match s.lookup first with
    | .reserved => .reserved first
    | .notMapped => .notMapped first
    | .entry i => .entry i
  | some second =>
    match s.lookup first, s.lookup second with
    | .reserved, _ => .reserved first
    | _, .reserved => .reserved second
    | .notMapped, _ => .notMapped first
    | _, .notMapped => .notMapped second
    | .entry i, .entry j => if i = j then .entry i else .split first

/-! ## Acceptance numbers and the boundary mark (R117, R125) -/

/-- How far back from the next acceptance number a number lies (R117). -/
def State.distance (s : State) (number : Word) : Nat := (s.nextAcceptance - number).toNat

/-- An entry is ahead of the boundary when its acceptance number is at or before the mark (R125). -/
def State.ahead (s : State) (e : Entry) : Bool :=
  match s.mark with
  | none => false
  | some m => s.distance m ≤ s.distance e.number

/-- No entry is ahead of the boundary (R46, R125). -/
def State.noneAhead (s : State) : Bool := s.queue.all fun e => !s.ahead e

/-- The head of the post queue is in space-wait ahead of the boundary (R125). -/
def State.headWaitsAhead (s : State) : Bool :=
  match s.queue with
  | [] => false
  | e :: _ => e.state == .spaceWait && s.ahead e

end Sys2Proof.Machine
end

