-- ==== Sys2Proof/Machine/Operands.lean ====
section
/-! DEFINITION. From a front-port request to rows: the burst check (R112), the rows and bytes a request covers
(R94), the class of a row (R134), the merge (R141) and the data beats of a read (R111). -/
namespace Sys2Proof.Machine

/-- Data byte j of a row, j = 0 at the lowest address (R91). -/
def rowByte (d : RowData) (j : Nat) : Byte := d.extractLsb' (8 * (15 - j)) 8

/-- Byte j of a beat, j = 0 at the beat's lowest address (R94, log entry 8). -/
def beatByte (data : Word) (j : Nat) : Byte := data.extractLsb' (8 * (3 - j)) 8

/-- The byte address and the burst length of a request (R110). -/
def Request.address : Request → Address
  | .read a _ => a
  | .write a _ => a

def Request.length : Request → Nat
  | .read _ n => n
  | .write _ beats => beats.length

def Request.isRead : Request → Bool
  | .read _ _ => true
  | .write _ _ => false

/-- The beats of a write; none for a read. -/
def Request.beats : Request → List Beat
  | .read _ _ => []
  | .write _ beats => beats

/-- The burst check (R112): 1, 2, 4 or 8 beats, at a multiple of 4 times the length. -/
def burstAcceptable (address : Address) (beats : Nat) : Bool :=
  (beats == 1 || beats == 2 || beats == 4 || beats == 8) && address.toNat % (4 * beats) == 0

/-- The row of a byte address: the address divided by 16, rounded down (R94). -/
def rowOf (address : Address) : Nat := address.toNat / 16

/-- The second row of a request: an eight-beat request covers two (R94). -/
def secondRow (address : Address) (beats : Nat) : Option Nat :=
  if beats = 8 then some (rowOf address + 1) else none

/-- The rows a request covers, in increasing order (R94). -/
def rowsOf (address : Address) (beats : Nat) : List Nat := rowOf address :: (secondRow address beats).toList

/-- The rows a queue entry covers, whatever its enables hold (R113). -/
def Entry.rows (e : Entry) : List Nat := rowsOf e.address e.beats.length

/-- The write request of a queue entry. -/
def Entry.request (e : Entry) : Request := .write e.address e.beats

/-- The write's byte at a byte number of the memory and whether it is enabled (R94): beat i covers the bytes
from A + 4i, and its enable j belongs to the byte at A + 4i + j. -/
def requestByte (address : Address) (beats : List Beat) (at_ : Nat) : Byte × Bool :=
  if at_ < address.toNat then (0#8, false)
  else
    match beats[(at_ - address.toNat) / 4]? with
    | none => (0#8, false)
    | some b => (beatByte b.data ((at_ - address.toNat) % 4), b.enable.getLsbD ((at_ - address.toNat) % 4))

/-- Sixteen bytes as a row's data bytes, data byte 0 first. -/
def packBytes (bytes : List Byte) : RowData :=
  bytes.foldl (fun acc b => (acc <<< 8) ||| b.setWidth 128) 0#128

/-- The write's data bytes in a row, data byte 0 first. -/
def rowBytes (address : Address) (beats : List Beat) (row : Nat) : RowData :=
  packBytes ((List.range 16).map fun j => (requestByte address beats (16 * row + j)).1)

/-- The write's enables in a row; bit j is data byte j. -/
def rowEnables (address : Address) (beats : List Beat) (row : Nat) : BitVec 16 :=
  (List.range 16).foldl
    (fun acc j => if (requestByte address beats (16 * row + j)).2 then acc ||| (1#16 <<< j) else acc) 0#16

/-- The class of a row from its enables (R134). -/
def classOf (enables : BitVec 16) : RowClass :=
  if enables = 0#16 then .untouched else if enables = 0xFFFF#16 then .full else .part

/-- The merge (R141): the request's byte where enabled, the row's byte as read elsewhere. -/
def mergeBytes (old new : RowData) (enables : BitVec 16) : RowData :=
  packBytes ((List.range 16).map fun j => if enables.getLsbD j then rowByte new j else rowByte old j)

/-- The data beats of a read whose rows gave these data bytes; a row that was not delivered gives zeros (R111). -/
def readBeats (address : Address) (beats : Nat) (delivered : Nat → Option RowData) : List Word :=
  (List.range beats).map fun i =>
    (List.range 4).foldl
      (fun acc j =>
        (acc <<< 8) |||
          (match delivered ((address.toNat + 4 * i + j) / 16) with
            | some d => rowByte d ((address.toNat + 4 * i + j) % 16)
            | none => 0#8).setWidth 32)
      0#32

/-- All the beats of a read as zero (R111). -/
def zeroBeats (beats : Nat) : List Word := List.replicate beats 0#32

/-- The beats of the answer to a request refused as a whole: zeros for a read, none for a write (R111). -/
def Request.refusedBeats : Request → List Word
  | .read _ n => zeroBeats n
  | .write _ _ => []

/-- The outcome the Region Map gives a request (R102). -/
def State.outcomeOf (s : State) (address : Address) (beats : Nat) : RequestOutcome :=
  s.requestOutcome (rowOf address) (secondRow address beats)

/-- A request's rows resolve to one region entry of mode JOURNALED (R47). -/
def State.resolvesJournaled (s : State) (address : Address) (beats : Nat) : Bool :=
  match s.outcomeOf address beats with
  | .entry i => (s.regions[i]).mode == .journaled
  | .reserved _ | .notMapped _ | .split _ => false

end Sys2Proof.Machine
end

