-- ==== Sys2Proof/Machine/Flags.lean ====
section
/-! DEFINITION. What the part shows of its state: the six raw alert conditions (R195), the ALERT line (R197), the
STATUS snapshot (R198, R203), and the standing conditions that events wait for (R4, R50, R85, R106, R120). -/
namespace Sys2Proof.Machine

/-- WATERMARK holds while the tail is at least the watermark, unless the journal is ABSENT or SCANNING (R21). -/
def State.watermarkHolds (s : State) : Bool :=
  match s.active with
  | none => false
  | some c =>
    match s.journal with
    | .absent _ | .scanning => false
    | .opened | .draining | .committing | .rollingBack | .undoing | .formatting | .broken _ =>
      c.watermark.toNat ≤ s.tail

/-- JOURNAL_BROKEN holds in BROKEN, and in ABSENT with reason ANCHOR_LOST or ANCHOR_MISMATCH (R2). -/
def State.journalBrokenHolds (s : State) : Bool :=
  match s.journal with
  | .broken _ => true
  | .absent .anchorLost => true
  | .absent .anchorMismatch => true
  | .absent .notConfigured => false
  | .scanning | .opened | .draining | .committing | .rollingBack | .undoing | .formatting => false

/-- The six raw conditions, numbered as in R195. -/
def State.rawConditions (s : State) : BitVec 6 :=
  BitVec.ofBool s.configDegraded ++ BitVec.ofBool s.journalBrokenHolds ++ BitVec.ofBool s.parked.isSome
    ++ BitVec.ofBool s.watermarkHolds ++ BitVec.ofBool s.completion.isSome ++ BitVec.ofBool (!s.log.isEmpty)

/-- The held conditions whose mask bit is clear (R198). -/
def State.maskedConditions (s : State) : BitVec 6 := s.rawConditions &&& ~~~ s.alertMask

/-- The ALERT line is asserted while an unmasked condition holds (R197), and never in reset (R74). -/
def State.alertAsserted (s : State) : Bool := !s.inReset && s.maskedConditions != 0#6

/-- The STATUS payload, 45 bytes (R198, R203). A bit of a byte that R203 gives to no field is 0 (the model's choice, log
entry 40). -/
def State.statusPayload (s : State) : List Byte :=
  [s.operating.code, s.journal.code, s.journal.absentCode ++ s.journal.actionCode]
    ++ bytes4 s.epochOrZero ++ bytes2 (BitVec.ofNat 16 s.tail) ++ bytes2 s.nSlots
    ++ [BitVec.ofNat 8 s.stack.length,
        BitVec.ofBool s.pendingRead.isSome ++ 0#3 ++ BitVec.ofNat 4 s.queue.length,
        BitVec.ofNat 8 s.log.length, s.dropped,
        s.rawConditions.setWidth 8, s.alertMask.setWidth 8, s.maskedConditions.setWidth 8]
    ++ bytes4 ((s.active.map ConfigRecord.generation).getD 0#32)
    ++ [(0#4 ++ designationCode s.designation ++ BitVec.ofBool s.copyB.isValid ++ BitVec.ofBool s.copyA.isValid :
          BitVec 8)]
    ++ bytes4 s.copyA.generationOrZero ++ bytes4 s.copyB.generationOrZero
    ++ [(0#4 ++ s.anchorB.code ++ s.anchorA.code : BitVec 8)]
    ++ bytes4 s.anchorA.epochOrZero ++ bytes4 s.anchorB.epochOrZero
    ++ [s.retryCounter, flagByte s.ckptLatch false false false false false false false,
        (s.longOp.map fun o => o.kind.code).getD 0#8, (s.longOp.map fun o => o.origin.code).getD 0#8,
        (s.longOp.map fun o => o.phase.code).getD 0#8]

/-- A job is a write job in its write stage (R106): past its freeze check and not yet ended. -/
def Job.inWriteStage (j : Job) : Bool :=
  !j.request.isRead &&
    match j.phase with
    | .reading _ => false
    | .appending _ _ _ _ => true
    | .writing _ => true
    | .parked => false

/-- A write job of a region is in its write stage (R106). -/
def State.writeStageOf (s : State) (region : Fin 16) : Bool :=
  match s.job with
  | none => false
  | some j => j.inWriteStage && j.region == region

/-- A journaled job, read or write, is in progress (R4); a parked job is not. -/
def State.journaledJobInProgress (s : State) : Bool :=
  match s.job with
  | none => false
  | some j => j.mode == .journaled

/-- The drain of the current long operation can end (R50). -/
def State.drainCanEnd (s : State) : Bool :=
  !s.inReset
    && (match s.longOp with
        | some o => o.phase == .waiting
        | none => false)
    && s.noneAhead && !s.journaledJobInProgress

/-- The settling of a quiesce is complete (R85). -/
def State.settled (s : State) : Bool := s.queue.isEmpty && s.pendingRead.isNone && s.job.isNone

/-- The pending read is eligible while no queue entry covers a row it covers (R120). -/
def State.readEligible (s : State) (p : PendingRead) : Bool :=
  s.queue.all fun e => (rowsOf p.address p.beats).all fun r => !(e.rows.contains r)

/-- A completed entry occupies the bus until its response (R110, R115). -/
def State.busFree (s : State) : Bool :=
  s.held.isNone && s.pendingRead.isNone && s.queue.all fun e => e.mark == .posted

/-- The post queue has room under the acknowledgement mode in force (R115). -/
def State.queueHasRoom (s : State) : Bool :=
  match s.ackMode with
  | .posted => s.queue.length < 8
  | .completed => s.queue.isEmpty

end Sys2Proof.Machine
end

