-- ==== Sys2Proof/Machine/Port.lean ====
section
/-! DEFINITION. The memory port's arbiter: a requester's request, the grant, and what happens when the port
becomes IDLE (R154, R156). -/
namespace Sys2Proof.Machine

/-- The waiting request of a requester (R156). -/
def State.waiting (s : State) : Requester → Option RowOp
  | .front => s.waitFront
  | .maint => s.waitMaint

def State.setWaiting (s : State) (r : Requester) (op : Option RowOp) : State :=
  match r with
  | .front => { s with waitFront := op }
  | .maint => { s with waitMaint := op }

def Requester.other : Requester → Requester
  | .front => .maint
  | .maint => .front

/-- The port is granted to an operation: its first attempt is issued, under the timeout and the retry count in
force at this moment (R149, R154), and the last-served record names its requester (R156). -/
def State.grant (s : State) (r : Requester) (op : RowOp) : State :=
  { s with
    port := .inFlight
      { requester := r, op := op, attempt := 1, timeout := s.timeoutInForce, retries := s.retriesInForce,
        last := none }
    lastServed := r }

/-- A request arrives: granted at once at an IDLE port for which the other requester does not wait, and the
requester's waiting request otherwise (R156). -/
def State.requestPort (s : State) (r : Requester) (op : RowOp) : State :=
  match s.port with
  | .idle => if (s.waiting r.other).isNone then s.grant r op else s.setWaiting r (some op)
  | .inFlight _ => s.setWaiting r (some op)
  | .aborting _ => s.setWaiting r (some op)

/-- The port has become IDLE: a waiting request is granted, of the requester not served last when both wait
(R156). -/
def State.arbitrate (s : State) : State :=
  match s.waiting s.lastServed.other with
  | some op => (s.setWaiting s.lastServed.other none).grant s.lastServed.other op
  | none =>
    match s.waiting s.lastServed with
    | some op => (s.setWaiting s.lastServed none).grant s.lastServed op
    | none => s

/-- A step of the start or of a long operation asks for its row operation on MAINT (R155). -/
def State.runMaint (s : State) (task : MaintTask) (op : RowOp) : State :=
  { s with maint := some task }.requestPort .maint op

end Sys2Proof.Machine
end

