-- ==== Sys2Proof/Machine/Front.lean ====
section
/-! DEFINITION. The Front Port Unit: taking requests in, the post queue, the hold limit, and what the Journal
Unit and the Start Unit ask of the queue (chapter 6, R82 to R85). -/
namespace Sys2Proof.Machine

/-! ## Operations of the Front Port Unit -/

/-- A fault record of the Front Port Unit: the request's byte address, no slot, both flags clear (R128). -/
def frontFault (kind : FaultKind) (address : Address) (row : Option Nat) (epoch : Word) : FaultRecord where
  kind := kind
  source := .frontPortUnit
  address := some address
  row := row
  slot := none
  epoch := epoch
  posted := false
  partialDone := false

/-- The response on the bus (R111). -/
def State.answer (s : State) (okay : Bool) (beats : List Word) : State :=
  { s with frontResponse := some { okay := okay, beats := beats } }

/-- A request refused as a whole: ERROR, and all the beats of a read zero (R111). -/
def State.answerRefused (s : State) (r : Request) : State := s.answer false r.refusedBeats

/-- A write joins the post queue with the next acceptance number, marked by the mode in force; a posted write is
answered OKAY at once (R115, R117). -/
def State.acceptWrite (s : State) (address : Address) (beats : List Beat) : State :=
  { s with
    queue := s.queue ++
      [{ address := address, beats := beats, number := s.nextAcceptance, mark := s.ackMode,
         state := .notStarted, timed := s.ackMode == .completed }]
    nextAcceptance := s.nextAcceptance + 1#32
    frontResponse :=
      match s.ackMode with
      | .posted => some { okay := true, beats := [] }
      | .completed => s.frontResponse }

/-- A held write is accepted when acceptance is open and the queue has room (R115), whether an entry has left or a
change of the acknowledgement mode made the room (R116; for the latter the model's choice, log entry 38). -/
def State.acceptHeldWrite (s : State) : State :=
  match s.held with
  | some (.write address beats) =>
    if s.acceptanceOpen && s.queueHasRoom then { s with held := none }.acceptWrite address beats else s
  | some (.read _ _) => s
  | none => s

/-- A request is taken in for acceptance: the burst check (R112), and then R115 for a write or R120 for a read. -/
def State.takeIn (s : State) (r : Request) : State :=
  if burstAcceptable r.address r.length then
    match r with
    | .read address beats =>
      { s with pendingRead := some { address := address, beats := beats, taken := false }, readHeld := false }
    | .write address beats =>
      if s.queueHasRoom then s.acceptWrite address beats else { s with held := some (.write address beats) }
  else
    (s.file (frontFault .alignment r.address (some (rowOf r.address)) s.epochOrZero)).answerRefused r

/-- The held request is taken in for acceptance when acceptance opens (R114). -/
def State.takeInHeld (s : State) : State :=
  match s.held with
  | none => s
  | some r => { s with held := none }.takeIn r

/-- The fault record of a request in UNCONFIGURED: no row, epoch 0 (R82). -/
def notReadyFault (r : Request) : FaultRecord := frontFault .notReady r.address none 0#32

/-- A request arrives (R114). In reset it only meets wait states and leaves no trace. The bus carries one request
at a time (R110), so no request can arrive while another's answer is owed (log entry 5). -/
def State.present (s : State) (r : Request) : State :=
  if s.inReset || !s.busFree then s
  else if s.acceptanceOpen then { s with frontResponse := none }.takeIn r
  else if s.operating = .unconfigured then (s.file (notReadyFault r)).answerRefused r
  else { s with held := some r, frontResponse := none }

/-- The head leaves the queue when its job ends or its hold limit expires: a completed entry is answered, and a
held write is accepted when there is room (R119, R123). The drain and the pending read read the queue. -/
def State.retireHead (s : State) (okay : Bool) : State :=
  match s.queue with
  | [] => s
  | e :: rest =>
    let s := { s with queue := rest, headHeld := false }
    (match e.mark with
      | .posted => s
      | .completed => s.answer okay []).acceptHeldWrite

/-- The counts of the current long operation change (R44). -/
def State.count (s : State) (f : LongOp → LongOp) : State := { s with longOp := s.longOp.map f }

/-- Entries chosen by `p` are discarded unperformed (R126): a completed one is answered OKAY, a parked job is
withdrawn, each adds one to the writes discarded, and a held write is accepted when there is room. -/
def State.discard (s : State) (p : Entry → Bool) : State :=
  let removed := s.queue.filter p
  let s := { s with
    queue := s.queue.filter fun e => !p e
    headHeld := s.headHeld && !(s.queue.head?.map p).getD false
    parked := if removed.any (fun e => e.state == EntryState.spaceWait) then none else s.parked }
  let s := if removed.any (fun e => e.mark == AckMode.completed) then s.answer true [] else s
  (s.count fun o => { o with discarded := o.discarded + removed.length }).acceptHeldWrite

/-- The entries an UNDO or a ROLLBACK discards at its taking: ahead of the boundary, not started, and resolving to
one entry of mode JOURNALED, frozen or not (R47, R126). -/
def State.discardable (s : State) (e : Entry) : Bool :=
  s.ahead e && (e.state == .notStarted || e.state == .spaceWait)
    && s.resolvesJournaled e.address e.beats.length

/-- The head in space-wait is discarded alone (R47, R126). -/
def State.discardWaitingHead (s : State) : State := s.discard fun e => e.state == .spaceWait

/-- The carry (R127): the boundary moves back before the head, which returns to NOT_STARTED with its parked job
withdrawn, and the entries that were ahead are counted as carried. -/
def State.carry (s : State) : State :=
  match s.queue with
  | [] => s
  | h :: rest =>
    let carried := (s.queue.filter s.ahead).length
    { s with
      mark := some (h.number - 1#32)
      queue := { h with state := .notStarted } :: rest
      parked := none
      headHeld := false }.count fun o => { o with carried := carried }

/-- The drop at power-fail quiesce (R84): the head and every entry behind it leave the queue, a completed entry is
answered ERROR, and one record is filed whose slot field is the number of entries. -/
def State.dropQueue (s : State) : State :=
  match s.queue with
  | [] => s
  | h :: rest =>
    let s := s.file
      { kind := .writesDroppedAtPowerFail, source := .startUnit, address := some h.address
        row := some (rowOf h.address), slot := some (rest.length + 1), epoch := s.epochOrZero
        posted := h.mark == .posted, partialDone := false }
    let s := { s with queue := [], parked := none, headHeld := false }
    match h.mark with
    | .posted => s
    | .completed => s.answer false []

/-- The head of the post queue is in space-wait. -/
def State.headWaits (s : State) : Bool :=
  match s.queue with
  | [] => false
  | e :: _ => e.state == .spaceWait

/-- QUIESCING drops a head in space-wait (R84). -/
def State.dropIfWaiting (s : State) : State :=
  if s.operating = .quiescing && s.headWaits then s.dropQueue else s

/-- The request that is timed under the hold limit in force, if any (R122): the held request, the pending read
until it is taken, or a completed entry until it is first taken. At most one of the three occupies the bus. -/
inductive Timed
  | held (r : Request)
  | read (p : PendingRead)
  | entry (e : Entry)
  deriving DecidableEq, Repr

def State.timedRequest (s : State) : Option Timed :=
  if s.inReset || s.holdLimit == 0#16 then none
  else
    match s.held with
    | some r => some (.held r)
    | none =>
      match s.pendingRead with
      | some p => if p.taken then none else some (.read p)
      | none =>
        match s.queue with
        | [] => none
        | e :: _ => if e.mark == .completed && e.timed then some (.entry e) else none

/-- The HOLD_EXPIRED record (R123). -/
def State.holdFault (s : State) (address : Address) : FaultRecord :=
  frontFault .holdExpired address (some (rowOf address)) s.epochOrZero

/-- A hold timer expires: the request is answered ERROR and never executed, and HOLD_EXPIRED is filed (R123). -/
def State.holdExpires (s : State) : State :=
  match s.timedRequest with
  | none => s
  | some (.held r) => ({ s with held := none }.file (s.holdFault r.address)).answerRefused r
  | some (.read p) =>
    ({ s with pendingRead := none, readHeld := false }.file (s.holdFault p.address)).answer false
      (zeroBeats p.beats)
  | some (.entry e) => (s.file (s.holdFault e.address)).retireHead false

/-! ## Meanings -/

/-- FRONT_READ_REQUEST (R110, R112, R114, R120, R82). -/
def execFrontReadRequest (address : Address) (beats : Nat) (s : State) : Host.Outcome State Fault Refusal :=
  .next (s.present (.read address beats))

/-- FRONT_WRITE_REQUEST (R110, R112, R114, R115, R82). -/
def execFrontWriteRequest (address : Address) (beats : List Beat) (s : State) :
    Host.Outcome State Fault Refusal :=
  .next (s.present (.write address beats))

/-- HELD_WRITE_ACCEPT (R115): a held write is accepted when acceptance is open and there is room; otherwise
nothing happens. -/
def execHeldWriteAccept (s : State) : Host.Outcome State Fault Refusal := .next s.acceptHeldWrite

/-- HOLD_TIMER_EXPIRY (R122, R123); no effect when no request is timed. -/
def execHoldTimerExpiry (s : State) : Host.Outcome State Fault Refusal := .next s.holdExpires

end Sys2Proof.Machine
end

