-- ==== Sys2Proof/Machine/Operation.lean ====
section
/-! DEFINITION. The frame of every long operation: taking (R45), the drain's own actions (R46 to R49), its end and
the settling of the CKPT latch (R70 to R72, R189), the end of the start (R81), and the operating state's moves
that go with them (R82 to R85). -/
namespace Sys2Proof.Machine

/-! ## Operating state -/

/-- QUIESCING is entered, and a head in space-wait is dropped at the entry (R83, R84). -/
def State.enterQuiescing (s : State) : State := { s with operating := .quiescing }.dropIfWaiting

/-- RUNNING is entered, and QUIESCING at once when PFW is asserted (R81, R82). -/
def State.enterRunning (s : State) : State :=
  if s.pfw then { s with operating := .running }.enterQuiescing else { s with operating := .running }

/-! ## Taking -/

/-- A long operation is taken (R45): its record is created, OPEN becomes DRAINING, and the boundary is marked at
the last accepted write (R46, R125). -/
def State.startOperation (s : State) (kind : OpKind) (origin : Origin) (skip : Bool) : State :=
  let s := { s with
    longOp := some
      { kind := kind, origin := origin, phase := .waiting, skip := skip, restored := 0, skipped := 0,
        discarded := 0, carried := 0 } }
  let s := if s.journal = .opened then s.setJournal .draining else s
  { s with mark := some (s.nextAcceptance - 1#32) }

/-- A COMMIT is taken; a head already in space-wait is carried at once (R48). In QUIESCING, where the latched COMMIT of
an early end meets the head that is still to be dropped, the carry comes first (the model's choice, log entry 35). -/
def State.takeCommit (s : State) (origin : Origin) : State :=
  let s := s.startOperation .commit origin false
  if s.headWaitsAhead then s.carry else s

/-! ## Ending -/

/-- The completion record is written: a write into an unread record sets the overrun flag (R185). -/
def State.writeCompletion (s : State) (c : CompletionRecord) : State :=
  { s with completion := some { c with overrun := s.completion.isSome } }

/-- The completion record of an operation that ends (R71, R174). -/
def LongOp.record (o : LongOp) (result : OpResult) (reason : Option Reason) (fault : Option FaultKind)
    (epochAfter : Word) : CompletionRecord where
  operation := o.kind
  origin := o.origin
  result := result
  reason := reason
  epochAfter := epochAfter
  restored := o.restored
  skipped := o.skipped
  discarded := o.discarded
  carried := o.carried
  fault := fault
  overrun := false

/-- A PENDING latch is settled (R72, R81, R189): taken as a COMMIT of origin LINE in OPEN, and dropped with
CKPT_DROPPED otherwise. A record that the same event has filed for its own failure stands before that CKPT_DROPPED (the
model's choice, log entry 39). -/
def State.settleLatch (s : State) : State :=
  if s.ckptLatch then
    let s := { s with ckptLatch := false }
    if s.journal = .opened then s.takeCommit .line else s.file s.ckptFault
  else s

/-- The start ends in RUNNING: the latch is settled, and PFW's level is taken (R81). -/
def State.endStartRunning (s : State) : State := { s with operating := .running }.settleLatch.enterRunning

/-- An APPLY that has made a configuration active moves UNCONFIGURED to RUNNING as it ends (R82, R174). -/
def State.leaveUnconfigured (s : State) : State :=
  if s.operating = .unconfigured && s.active.isSome then s.enterRunning else s

/-- A long operation ends (R70): the journal state is set, the boundary mark removed, the completion record
written, the operation's record removed, and the CKPT latch settled. The start's recovery ends the start, and with it
the mark that its scan has set. -/
def State.endOperation (s : State) (journal : JournalState) (result : OpResult) (reason : Option Reason)
    (fault : Option FaultKind) : State :=
  match s.longOp with
  | none => s
  | some o =>
    let s := { s.setJournal journal with mark := none, maint := none, longOp := none }
    let s := s.writeCompletion (o.record result reason fault s.epochOrZero)
    if o.origin = .start then { s with recoveryMark := none }.endStartRunning else s.settleLatch.leaveUnconfigured

/-- The journal state an operation that changed nothing ends in: DRAINING returns to OPEN, and BROKEN or ABSENT
stays (R49, R169, R170). -/
def State.journalBefore (s : State) : JournalState :=
  if s.journal = .draining then .opened else s.journal

/-- An operation ends REFUSED with a reason (R49, R54, R67, R169). -/
def State.refuseOperation (s : State) (reason : Reason) : State :=
  s.endOperation s.journalBefore .refused (some reason) none

/-- The header mark at the end of a start's recovery that failed: the N_S that R80 has set as its scan stopped (R17,
log entry 27). Another operation keeps its own. -/
def State.markUnexamined (s : State) : State :=
  match s.longOp with
  | none => s
  | some o => if o.origin = .start then { s with headerMark := s.recoveryMark.getD s.headerMark } else s

/-- An operation ends FAILED with the fault kind that ended it (R53, R71); a failed recovery leaves the header mark at
N_S (R17). The record of that fault has been filed before, and so stands before the CKPT_DROPPED of the end (the model's
choice, log entry 39). -/
def State.failOperation (s : State) (journal : JournalState) (kind : FaultKind) : State :=
  s.markUnexamined.endOperation journal .failed none (some kind)

/-- What a drain does about a head in space-wait ahead of its boundary: COMMIT carries it (R48), ROLLBACK and an
UNDO with a savepoint discard it (R47), and SAVE, RELEASE, APPLY, a FORMAT taken in OPEN and an UNDO without a
savepoint end early (R49). A FORMAT or a RESUME taken in BROKEN or ABSENT has no such rule. -/
def State.drainAction (s : State) : State :=
  match s.longOp with
  | none => s
  | some o =>
    if o.phase = .waiting && s.headWaitsAhead then
      match o.kind with
      | .commit => s.carry
      | .rollback => s.discardWaitingHead
      | .undo => if s.stack.isEmpty then s.refuseOperation .noSavepoint else s.discardWaitingHead
      | .save | .release | .apply => s.refuseOperation .queueHeld
      | .format => if s.journal = .draining then s.refuseOperation .queueHeld else s
      | .resume => s
    else s

/-- A long command is taken (R45, R168), with the discard an UNDO or ROLLBACK asks for (R47) and what its drain
does about a head already in space-wait (R48, R49). -/
def State.takeOperation (s : State) (kind : OpKind) (origin : Origin) (skip : Bool) : State :=
  let s := s.startOperation kind origin skip
  let s :=
    match kind with
    | .rollback => s.discard s.discardable
    | .undo => if s.stack.isEmpty then s else s.discard s.discardable
    | .save | .release | .commit | .resume | .format | .apply => s
  s.drainAction

/-- The head has entered space-wait: the drain acts on it, and QUIESCING drops it. Either may be taken first
(R51, log entry 2). An early end whose CKPT latch is PENDING takes a COMMIT, which carries the head before the drop
could come (the model's choice, log entry 35). -/
def State.spaceWaitEntered (s : State) : State :=
  if s.operating = .quiescing && s.longOp.isSome && s.headWaitsAhead then
    let drop := Config.freeChoice s.freeCount
    let s := { s with freeCount := s.freeCount + 1 }
    if drop then s.dropIfWaiting else s.drainAction.dropIfWaiting
  else s.drainAction.dropIfWaiting

/-! ## Deferred FREEZE (R106) -/

/-- A deferred FREEZE is decided: refused with RECORDS_PRESENT when its JOURNALED region has records by now, and
its flag is set otherwise. A response that is still awaited becomes READY (R179). -/
def State.decideDeferred (s : State) (region : Fin 16) : State :=
  let refused := (s.regions[region]).mode == .journaled && s.recordsInRegion s.regions[region]
  { s with
    deferredFreeze := none
    freeze := if refused then s.freeze else s.freeze.set region true
    response :=
      if s.response = .pending then
        .ready (if refused then responseFrame .refused [Reason.recordsPresent.code] else responseFrame .ok [])
      else s.response }

/-- The deferred FREEZE is due once no write job of its region is in its write stage. -/
def State.decideIfDue (s : State) : State :=
  match s.deferredFreeze with
  | none => s
  | some region => if s.writeStageOf region then s else s.decideDeferred region

/-! ## Meanings -/

/-- FREEZE_DEFERRED_DECISION (R106). No effect when no FREEZE is deferred, or its job is still in its write
stage. -/
def execFreezeDeferredDecision (s : State) : Host.Outcome State Fault Refusal := .next s.decideIfDue

/-- QUIESCED_ENTRY (R85): QUIESCING becomes QUIESCED when the queue is empty, no read is pending and no job is in
progress; no effect otherwise. -/
def execQuiescedEntry (s : State) : Host.Outcome State Fault Refusal :=
  .next (if !s.inReset && s.operating == .quiescing && s.settled then { s with operating := .quiesced } else s)

end Sys2Proof.Machine
end

