-- ==== Sys2Proof/Machine/Journal.lean ====
section
/-! DEFINITION. The Journal Unit on MAINT: the epoch advance and the wipe (R25 to R27), the restore (R52 to R57,
R64, R65), the format (R67 to R69), and the start's anchor read, scan and rollback (R78 to R81). Each operation
asks for one row operation and goes on when its result is delivered. -/
namespace Sys2Proof.Machine

/-! ## The epoch advance -/

/-- The copy an anchor write chooses: A when A's record is not VALID, or VALID with an epoch lower than B's; B
otherwise (R25). -/
def chooseAnchor (a b : AnchorRecord) : Copy :=
  match a with
  | .mismatched => .a
  | .invalid => .a
  | .valid ea =>
    match b with
    | .valid eb => if ea < eb then .a else .b
    | .mismatched => .b
    | .invalid => .b

/-- The anchor that the part writes for an epoch: marker, epoch, echoes of the active configuration (R7). -/
def State.anchorFor (s : State) (epoch : Word) : Anchor :=
  { marker := anchorMarker, epoch := epoch, base := s.base, nSlots := s.nSlots }

/-- The row of an anchor copy as it is written for an epoch (R7, R93). -/
def State.anchorRowFor (s : State) (c : Copy) (epoch : Word) : Row :=
  freshRow (s.anchorRow c) (s.anchorFor epoch).encode

/-- An anchor write is issued: the copy's validity record becomes INVALID (R9, R25). -/
def State.writeAnchor (s : State) (goal : AnchorGoal) (c : Copy) (epoch : Word) : State :=
  (s.setAnchor c .invalid).runMaint (.anchorWrite goal c epoch)
    (.write (s.anchorRow c) (s.anchorRowFor c epoch))

/-- A wipe, or a header clear, writes a header row with 16 zero bytes and its check value (R10, R27). -/
def State.clearedHeader (s : State) (k : Nat) : Row := freshRow (s.headerRow k) 0#128

def State.writeWipe (s : State) (k : Nat) (forFormat : Bool) : State :=
  s.runMaint (.wipeHeader k forFormat) (.write (s.headerRow k) (s.clearedHeader k))

/-- The epoch advance begins: one anchor copy with the next epoch (R25), or the wipe from the last epoch (R27). -/
def State.startAdvance (s : State) : State :=
  if s.epochOrZero = maxWord then s.writeWipe 0 false
  else s.writeAnchor .advance (chooseAnchor s.anchorA s.anchorB) (s.epochOrZero + 1#32)

/-- A successful advance: the new epoch is current and the journal is empty (R26), and the operation that called
it ends DONE in OPEN (R56, R59, R64, R66, R80). -/
def State.advanceSucceeded (s : State) (epoch : Word) : State :=
  ({ s.emptyJournal.restartSequence with epoch := some epoch }).endOperation .opened .done none none

/-- The resume action that a failed advance leaves: COMPLETE_COMMIT for a commit's advance, ROLL_BACK for another
(R63). -/
def State.advanceAction (s : State) : ResumeAction :=
  if s.journal = .committing then .completeCommit else .rollBack

/-- An advance of one anchor copy fails (R25). A COMMIT whose advance was not written returns to OPEN (R59); in
every other case the journal becomes BROKEN (R57, R59, R64, R66, R80). -/
def State.advanceFailed (s : State) (notWritten : Bool) (kind : FaultKind) : State :=
  let commitOpen := notWritten && (s.longOp.map LongOp.kind) == some .commit
  s.failOperation (if commitOpen then .opened else .broken s.advanceAction) kind

/-- An advance fails with the journal lost, once its wipe has begun (R26, R27). -/
def State.journalLost (s : State) (kind : FaultKind) : State :=
  s.emptyJournal.failOperation (.broken s.advanceAction) kind

/-! ## The restore -/

/-- The tail at which the restores stop: the top savepoint for an UNDO (R54), 0 for a rollback (R56, R64, R80). -/
def State.restoreFloor (s : State) : Nat :=
  if (s.longOp.map LongOp.kind) = some .undo then s.segmentStart else 0

/-- The next restore begins with its image read (R52); when none is left, an UNDO ends DONE (R54) and a rollback
goes on to the epoch advance (R56, R64, R80). -/
def State.restoreNext (s : State) : State :=
  if s.restoreFloor < s.tail then
    s.runMaint (.restoreImage (s.tail - 1)) (.read (s.imageRow (s.tail - 1)))
  else if (s.longOp.map LongOp.kind) = some .undo then s.endOperation .opened .done none none
  else s.startAdvance

/-- A restore stops (R53): its record is filed, and the operation ends FAILED in BROKEN with action ROLL_BACK
(R55, R57, R64, R80). -/
def State.restoreStopped (s : State) (j : Nat) (kind : FaultKind) : State :=
  (s.file (s.journalFault kind (((s.slots[j]?).map SlotEntry.target).getD 0) (some j))).failOperation
    (.broken .rollBack) kind

/-- The image of slot j has been read (R52): a GOOD image is written to its target with the original side word; a
BAD one stops the restore, or is skipped by a RESUME with the skip flag (R65). -/
def State.imageRead (s : State) (j : Nat) (image : Row) : State :=
  if rowGood (s.imageRow j) image then
    match s.slots[j]? with
    | none => s
    | some e => s.runMaint (.restoreTarget j) (.write e.target { data := image.data, side := e.side })
  else
    match s.longOp with
    | none => s
    | some o =>
      if o.kind = .resume && o.skip then
        ((s.file (s.journalFault .imageCheck (((s.slots[j]?).map SlotEntry.target).getD 0) (some j))).dropRecord.count
          fun o => { o with skipped := o.skipped + 1 }).restoreNext
      else s.restoreStopped j .imageCheck

/-- The target of a restore has been written: the index is repaired, the slot leaves the table, and the tail falls
(R35, R52). -/
def State.targetWritten (s : State) : State :=
  (s.dropRecord.count fun o => { o with restored := o.restored + 1 }).restoreNext

/-- ROLLING_BACK is entered, which empties the savepoint stack, and the restores begin (R32, R56). -/
def State.enterRollingBack (s : State) : State :=
  { s.setJournal .rollingBack with stack := [] }.restoreNext

/-! ## The format -/

/-- FORMATTING is entered: the stack, the slot table, the index and the tail are emptied, the resume action is
dropped, and anchor row A is read first (R67, R68). The current epoch, if any, counts. -/
def State.enterFormatting (s : State) : State :=
  (s.setJournal .formatting).emptyJournal.runMaint (.formatAnchor .a s.epochOrZero) (.read (s.anchorRow .a))

/-- A format fails: ABSENT with reason ANCHOR_LOST, no current epoch, FAILED (R69). The next sequence number, its flag
and the header mark stay as they were (the model's choice between R16, R17 and R69, log entry 28). -/
def State.formatFailed (s : State) (kind : FaultKind) : State :=
  { s with epoch := none }.failOperation (.absent .anchorLost) kind

/-- Both anchors are confirmed: the epoch is current, the sequence and the header mark begin again, OPEN (R69). -/
def State.formatSucceeded (s : State) (epoch : Word) : State :=
  { s.restartSequence with epoch := some epoch }.endOperation .opened .done none none

/-- The scan of a format is complete: epoch E is one above the greatest found, or 1 after a wipe when the greatest
is the last epoch (R68). -/
def State.formatScanned (s : State) (greatest : Word) : State :=
  if greatest = maxWord then s.writeWipe 0 true
  else s.writeAnchor .formatFirst (chooseAnchor s.anchorA s.anchorB) (greatest + 1#32)

/-- The greater of an epoch found so far and a row's epoch, when the row names one. -/
def raiseEpoch (greatest : Word) (present : Bool) (epoch : Word) : Word :=
  if present && greatest < epoch then epoch else greatest

/-- A format reads the header of slot k, or has read them all (R68). -/
def State.formatHeaders (s : State) (k : Nat) (greatest : Word) : State :=
  if k < s.nSlots.toNat then s.runMaint (.formatHeader k greatest) (.read (s.headerRow k))
  else s.formatScanned greatest

/-- An anchor of a format has been read, or its read has failed, its record is filed (R152) and it contributes nothing
(R68). -/
def State.formatAnchorRead (s : State) (c : Copy) (greatest : Word) : State :=
  match c with
  | .a => s.runMaint (.formatAnchor .b greatest) (.read (s.anchorRow .b))
  | .b => s.formatHeaders 0 greatest

/-! ## Results of anchor and wipe writes -/

/-- An anchor write is confirmed: the copy's record becomes VALID (R9), and the caller goes on (R25, R27, R69). -/
def State.anchorConfirmed (s : State) (goal : AnchorGoal) (c : Copy) (epoch : Word) : State :=
  let s := s.setAnchor c (.valid epoch)
  match goal with
  | .advance => s.advanceSucceeded epoch
  | .wipeFirst => { s with epoch := some epoch }.writeAnchor .wipeSecond c.other epoch
  | .wipeSecond => s.advanceSucceeded epoch
  | .formatFirst => s.writeAnchor .formatSecond c.other epoch
  | .formatSecond => s.formatSucceeded epoch

/-- An anchor write is not written, or is unconfirmed: its record is filed, and its caller fails (R25, R27, R69). A
failed format's record is filed before the epoch is dropped, and so carries it (the model's choice, log entry 34). -/
def State.anchorFailed (s : State) (goal : AnchorGoal) (c : Copy) (notWritten : Bool) (kind : FaultKind) : State :=
  let s := s.file (s.journalFault kind (s.anchorRow c) none)
  match goal with
  | .advance => s.advanceFailed notWritten kind
  | .wipeFirst => s.journalLost kind
  | .wipeSecond => s.journalLost kind
  | .formatFirst => s.formatFailed kind
  | .formatSecond => s.formatFailed kind

/-- The row a confirming read returned holds exactly the intended anchor: it is GOOD, and its four fields are the
intended ones (R7, R25); the unused bytes are ignored, as on every read of an anchor (R200). -/
def State.holdsAnchor (s : State) (c : Copy) (epoch : Word) (r : Row) : Bool :=
  rowGood (s.anchorRow c) r && Anchor.decode r.data == s.anchorFor epoch

/-- The confirming read has returned a row: the intended anchor, or other contents (R25). -/
def State.anchorReadBack (s : State) (goal : AnchorGoal) (c : Copy) (epoch : Word) (r : Row) : State :=
  if s.holdsAnchor c epoch r then s.anchorConfirmed goal c epoch
  else s.anchorFailed goal c true .memoryFail

/-- A header of a wipe is written; after the last slot the anchors follow, with epoch 1 (R27, R68). -/
def State.wipeWritten (s : State) (k : Nat) (forFormat : Bool) : State :=
  if k + 1 < s.nSlots.toNat then s.writeWipe (k + 1) forFormat
  else
    s.writeAnchor (if forFormat then .formatFirst else .wipeFirst) (chooseAnchor s.anchorA s.anchorB) 1#32

/-- A header write of a wipe fails (R27, R69). A failed format's record is filed before the epoch is dropped, and so
carries it (the model's choice, log entry 34). -/
def State.wipeFailed (s : State) (k : Nat) (forFormat : Bool) (kind : FaultKind) : State :=
  let s := s.file (s.journalFault kind (s.headerRow k) (some k))
  if forFormat then s.formatFailed kind else s.journalLost kind

/-! ## The start's recovery -/

/-- SCANNING is entered with the record of a rollback of origin START, and anchor row A is read (R76, R78). -/
def State.enterScanning (s : State) : State :=
  { s.setJournal .scanning with
    longOp := some
      { kind := .rollback, origin := .start, phase := .executing, skip := false, restored := 0, skipped := 0,
        discarded := 0, carried := 0 } }.runMaint (.anchorRead .a) (.read (s.anchorRow .a))

/-- The start ends without a recovery: the record is removed and no completion record is written (R78, R81). -/
def State.endStartQuietly (s : State) (journal : JournalState) : State :=
  { s.setJournal journal with longOp := none, maint := none }.endStartRunning

/-- The scan begins at slot 0 in the selected epoch (R78, R79). -/
def State.startScan (s : State) (epoch : Word) : State :=
  { s with epoch := some epoch }.runMaint (.scanHeader 0 [] []) (.read (s.headerRow 0))

/-- The ANCHOR_DEGRADED record names the copy that is not VALID and the selected epoch (R78). -/
def State.anchorDegraded (s : State) (c : Copy) (epoch : Word) : State :=
  s.file { s.journalFault .anchorDegraded (s.anchorRow c) none with epoch := epoch }

/-- The copy is selected from the two classifications (R78). -/
def State.selectAnchor (s : State) : State :=
  match s.anchorA, s.anchorB with
  | .valid ea, .valid eb => s.startScan (if ea < eb then eb else ea)
  | .valid ea, .mismatched => (s.anchorDegraded .b ea).startScan ea
  | .valid ea, .invalid => (s.anchorDegraded .b ea).startScan ea
  | .mismatched, .valid eb => (s.anchorDegraded .a eb).startScan eb
  | .invalid, .valid eb => (s.anchorDegraded .a eb).startScan eb
  | .mismatched, .mismatched => s.endStartQuietly (.absent .anchorMismatch)
  | .mismatched, .invalid => s.endStartQuietly (.absent .anchorMismatch)
  | .invalid, .mismatched => s.endStartQuietly (.absent .anchorMismatch)
  | .invalid, .invalid => s.endStartQuietly (.absent .anchorLost)

/-- An anchor of the start is classified; B is read after A, and then a copy is selected (R78). -/
def State.anchorClassified (s : State) (c : Copy) (r : AnchorRecord) : State :=
  let s := s.setAnchor c r
  match c with
  | .a => s.runMaint (.anchorRead .b) (.read (s.anchorRow .b))
  | .b => s.selectAnchor

/-- A header continues the journal (R79): valid, of the current epoch, with a greater sequence number than the slot
before it, and with the back-link that the slots already accepted call for. -/
def State.headerAccepted (s : State) (k : Nat) (last : Option Word) (accepted : List SlotEntry) (r : Row) : Bool :=
  let h := Header.decode r.data
  headerValid s.memSize (s.headerRow k) r
    && some h.epoch == s.epoch
    && (match last with
        | none => true
        | some q => q < h.sequence)
    && newestSlot accepted h.target.toNat == h.link

/-- The slot-table entry of an accepted header (R79, R13). -/
def acceptedEntry (r : Row) : SlotEntry :=
  let h := Header.decode r.data
  { target := h.target.toNat, backLink := h.link, side := h.side }

/-- What the scan takes from an accepted header beside the entry's three fields (R79, log entry 17). -/
def acceptedHeader (r : Row) : SlotHeader :=
  let h := Header.decode r.data
  { imageBad := h.imageBad, sequence := h.sequence }

/-- The on-chip state is built from the accepted slots (R79). -/
def State.buildJournal (s : State) (headers : List SlotHeader) (accepted : List SlotEntry) : State :=
  { s with slots := accepted, slotHeaders := headers, index := indexFrom 0 [] accepted, stack := [] }

/-- R80 sets the header mark to N_S as the scan stops, since the headers above have not been examined; `headerMark`
takes it at the recovery's end, until which R17 and R79 keep its start value (the model's choice between them, log
entry 27). -/
def State.setRecoveryMark (s : State) : State := { s with recoveryMark := some s.nSlots.toNat }

/-- The scan has stopped without failing (R79 to R81). With no record, and below the last epoch, the recovery ends here:
the header mark becomes N_S and the next sequence number 0 (R16, R17, R81). Otherwise ROLLING_BACK is entered with the
mark of R80. -/
def State.scanStopped (s : State) (headers : List SlotHeader) (accepted : List SlotEntry) : State :=
  let s := s.buildJournal headers accepted
  if accepted.isEmpty && s.epochOrZero != maxWord then
    { s with nextSequence := 0#32, exhausted := false, headerMark := s.nSlots.toNat }.endStartQuietly .opened
  else s.setRecoveryMark.enterRollingBack

/-- The sequence number of the last slot accepted; none before slot 0 (R79). -/
def lastSequence (headers : List SlotHeader) : Option Word := headers.getLast?.map SlotHeader.sequence

/-- A header of the scan has been read (R79). -/
def State.headerScanned (s : State) (k : Nat) (headers : List SlotHeader) (accepted : List SlotEntry) (r : Row) :
    State :=
  if s.headerAccepted k (lastSequence headers) accepted r then
    let headers := headers ++ [acceptedHeader r]
    let accepted := accepted ++ [acceptedEntry r]
    if k + 1 < s.nSlots.toNat then s.runMaint (.scanHeader (k + 1) headers accepted) (.read (s.headerRow (k + 1)))
    else s.scanStopped headers accepted
  else s.scanStopped headers accepted

/-- A header read of the scan has failed: the recovery fails with the slots accepted so far and the mark of R80 (R79,
R80). -/
def State.scanFailed (s : State) (k : Nat) (headers : List SlotHeader) (accepted : List SlotEntry)
    (kind : FaultKind) : State :=
  let s := (s.buildJournal headers accepted).setRecoveryMark
  (s.file (s.journalFault kind (s.headerRow k) (some k))).failOperation (.broken .rollBack) kind

/-! ## Execution of the journal commands (R50) -/

/-- SAVE (R30). -/
def State.executeSave (s : State) : State :=
  if s.stack.length < 7 then { s with stack := s.tail :: s.stack }.endOperation .opened .done none none
  else s.refuseOperation .stackFull

/-- RELEASE (R31). -/
def State.executeRelease (s : State) : State :=
  match s.stack with
  | [] => s.refuseOperation .noSavepoint
  | _ :: rest => { s with stack := rest }.endOperation .opened .done none none

/-- UNDO (R54). -/
def State.executeUndo (s : State) : State :=
  match s.stack with
  | [] => s.refuseOperation .noSavepoint
  | _ :: _ => (s.setJournal .undoing).restoreNext

/-- ROLLBACK (R56). -/
def State.executeRollback (s : State) : State :=
  if s.tail = 0 && !s.exhausted then { s with stack := [] }.endOperation .opened .empty none none
  else s.enterRollingBack

/-- COMMIT (R58). -/
def State.executeCommit (s : State) : State :=
  if s.tail = 0 && !s.exhausted then { s with stack := [] }.endOperation .opened .empty none none
  else (s.setJournal .committing).startAdvance

/-- RESUME (R64, R66): the resume action of BROKEN says which. -/
def State.executeResume (s : State) : State :=
  match s.journal with
  | .broken .rollBack => s.enterRollingBack
  | .broken .completeCommit => (s.setJournal .committing).startAdvance
  | .absent _ | .scanning | .opened | .draining | .committing | .rollingBack | .undoing | .formatting => s

/-- FORMAT (R67). -/
def State.executeFormat (s : State) : State :=
  if s.journal = .draining && s.tail != 0 then s.refuseOperation .recordsPresent else s.enterFormatting

end Sys2Proof.Machine
end

