-- ==== Sys2Proof/Machine/Configure.lean ====
section
/-! DEFINITION. The Configuration Unit: the load at start (R164, R165), the installation (R76), the execution of
APPLY (R168 to R171), its activation and its journal step (R172 to R174). -/
namespace Sys2Proof.Machine

/-! ## The load -/

/-- The load reads row i of a copy (R164). -/
def State.loadRow (s : State) (c : Copy) (i : Nat) (rows : List RowData) (first : Option ConfigRecord) : State :=
  s.runMaint (.loadRow c i rows first) (.read (c.firstRow + i))

/-- The validity record of a classified copy (R163). -/
def copyRecordOf : Option ConfigRecord → CopyRecord
  | some c => .valid c.generation
  | none => .invalid

/-- No copy is VALID: the start ends UNCONFIGURED (R76, R81). The staging record is 0 (R165), a held request is
answered NOT_READY (R82), and a latched commit is dropped (R81). The two filings may come in either order. -/
def State.endStartUnconfigured (s : State) : State :=
  let s := { s with operating := .unconfigured, staging := ConfigRecord.zero, designation := none, maint := none }
  match s.held with
  | none => s.settleLatch
  | some r =>
    let s := { s with held := none }.answerRefused r
    if s.ckptLatch then { s with ckptLatch := false }.fileTogether (notReadyFault r) s.ckptFault
    else s.file (notReadyFault r)

/-- A configuration is installed (R76): it is active, the staging record equals it (R165), and its alert mask is in
force (R196); acceptance opens, so the held request is taken in (R114). The freeze flags stay clear, as reset left
them (R100, R104). Then the journal is scanned, or the start ends when there is no journal (R76, R81). The
CONFIG_DEGRADED record names the first row of the INVALID copy, as R165's sentence has it and not its table (the
model's choice, log entry 29). What the installation files comes before the CKPT_DROPPED of a start that ends with it
(the model's choice, log entry 33). -/
def State.install (s : State) (c : ConfigRecord) (from_ : Copy) (degraded : Option Copy) : State :=
  let s := { s with
    active := some c, staging := c, designation := some from_, alertMask := c.alertMask,
    maint := none, configDegraded := degraded.isSome }
  let s :=
    match degraded with
    | none => s.takeInHeld
    | some d =>
      let fault := configFault .configDegraded d.firstRow 0#32
      match s.held with
      | none => s.file fault
      | some r =>
        if burstAcceptable r.address r.length then (s.file fault).takeInHeld
        else
          ({ s with held := none }.fileTogether fault
            (frontFault .alignment r.address (some (rowOf r.address)) s.epochOrZero)).answerRefused r
  if c.nSlots = 0#16 then s.endStartRunning else s.enterScanning

/-- The active configuration is selected from the two classified copies (R165). -/
def State.selectConfig (s : State) (a b : Option ConfigRecord) : State :=
  match a, b with
  | some ca, some cb => if ca.generation < cb.generation then s.install cb .b none else s.install ca .a none
  | some ca, none => s.install ca .a (some .b)
  | none, some cb => s.install cb .b (some .a)
  | none, none => s.endStartUnconfigured

/-- A copy is classified; copy B is read after copy A, and then a copy is selected (R164, R165). -/
def State.copyClassified (s : State) (c : Copy) (record : Option ConfigRecord) (first : Option ConfigRecord) :
    State :=
  let s := s.setCopy c (copyRecordOf record)
  match c with
  | .a => s.loadRow .b 0 [] record
  | .b => s.selectConfig first record

/-- A row of a copy has been read (R164): a BAD row ends the copy INVALID; after the sixteenth GOOD row the copy
is classified. -/
def State.loadRowRead (s : State) (c : Copy) (i : Nat) (rows : List RowData) (first : Option ConfigRecord)
    (r : Row) : State :=
  if rowGood (c.firstRow + i) r then
    if i < 15 then s.loadRow c (i + 1) (rows ++ [r.data]) first
    else s.copyClassified c (classifyCopy (rows ++ [r.data])) first
  else s.copyClassified c none first

/-- A row read of the load has failed: its record is filed and the copy is INVALID (R164). What the end of the load files
comes after it (the model's choice, log entry 39). -/
def State.loadRowFailed (s : State) (c : Copy) (i : Nat) (first : Option ConfigRecord) (kind : FaultKind) : State :=
  (s.file (configFault kind (c.firstRow + i) 0#32)).copyClassified c none first

/-! ## APPLY -/

/-- The staged record places another journal area than the active one: another base row or N_S, or none (R170). -/
def areaDiffers (c staged : ConfigRecord) : Bool := c.nSlots != staged.nSlots || c.base != staged.base

/-- The generation an APPLY writes: one above the active one (R170), or 1 without one (R171). -/
def State.applyGeneration (s : State) : Word :=
  match s.active with
  | some c => c.generation + 1#32
  | none => 1#32

/-- The record an APPLY writes: the staged fields with the fixed signature and the new generation (R170). -/
def State.applyRecord (s : State) : ConfigRecord :=
  { s.staging with signature := configSignature, generation := s.applyGeneration }

/-- The copy an APPLY writes: the one the designation does not name (R170). -/
def State.applyTarget (s : State) : Copy :=
  match s.designation with
  | some c => c.other
  | none => .a

/-- Row i of a copy as an APPLY writes it (R170, R201). -/
def State.applyRow (s : State) (c : Copy) (i : Nat) : Row :=
  freshRow (c.firstRow + i) (configRowData s.applyRecord i)

/-- The copy write of a copy begins with the closing clear; its validity record becomes INVALID (R163, R170). -/
def State.startCopyWrite (s : State) (c : Copy) : State :=
  (s.setCopy c .invalid).runMaint (.copyClear c) (.write c.closingRow (freshRow c.closingRow 0#128))

/-- Body row i of a copy write (R170). -/
def State.writeBody (s : State) (c : Copy) (i : Nat) : State :=
  s.runMaint (.copyBody c i) (.write (c.firstRow + i) (s.applyRow c i))

/-- The closing write of a copy (R170). -/
def State.writeClosing (s : State) (c : Copy) : State :=
  s.runMaint (.copyClose c) (.write c.closingRow (s.applyRow c 15))

/-- The confirmation reads row i of a copy (R170). -/
def State.confirmRow (s : State) (c : Copy) (i : Nat) (rows : List Row) : State :=
  s.runMaint (.copyConfirm c i rows) (.read (c.firstRow + i))

/-- The four checks of APPLY at execution (R169). A deferred FREEZE counts as a set flag. -/
def State.applyRefusal (s : State) : Option Reason :=
  if s.journal = .draining && s.tail != 0 then some .recordsPresent
  else if s.freeze.toList.any id || s.deferredFreeze.isSome then some .frozen
  else if !s.staging.valid then some .invalidConfig
  else if (s.active.map ConfigRecord.generation) = some maxWord then some .generationExhausted
  else none

/-- APPLY executes: the checks (R169), then the slot 0 clear when a journal area changes, or the copy write (R170,
R171). -/
def State.executeApply (s : State) : State :=
  match s.applyRefusal with
  | some reason => s.refuseOperation reason
  | none =>
    match s.active with
    | some c =>
      if c.nSlots != 0#16 && areaDiffers c s.staging then
        s.runMaint .slotZeroClear (.write (s.headerRow 0) (s.clearedHeader 0))
      else s.startCopyWrite s.applyTarget
    | none => s.startCopyWrite .a

/-- The copy write of an APPLY fails (R170): the record of the row concerned is filed, and the operation ends
FAILED with everything else as it was. The record has no slot, for the slot 0 clear too (log entry 31). Where the
end drops a latched commit, its CKPT_DROPPED comes after that record (the model's choice, log entry 39). -/
def State.applyFailed (s : State) (row : Nat) (kind : FaultKind) : State :=
  (s.file (configFault kind row s.epochOrZero)).failOperation s.journalBefore kind

/-- The first row, from row i on, that the confirmation read otherwise than it was written (R170). -/
def State.firstDiffering (s : State) (c : Copy) (i : Nat) : List Row → Nat
  | [] => c.firstRow
  | r :: rest => if r = s.applyRow c i then s.firstDiffering c (i + 1) rest else c.firstRow + i

/-- The copy as read back is VALID and holds exactly the record written (R162, R170). -/
def State.copyConfirmed (s : State) (c : Copy) (rows : List Row) : Bool :=
  (rows.zipIdx.all fun p => rowGood (c.firstRow + p.2) p.1)
    && classifyCopy (rows.map Row.data) == some s.applyRecord

/-- All 16 rows of the copy have been read back (R170): a confirmed copy becomes VALID, and the activation waits,
or copy B follows copy A in a first APPLY (R171). -/
def State.copyReadBack (s : State) (c : Copy) (rows : List Row) : State :=
  if s.copyConfirmed c rows then
    let s := s.setCopy c (.valid s.applyGeneration)
    if s.active.isNone && c == .a then s.startCopyWrite .b
    else { s with maint := none, activationDue := true }
  else s.applyFailed (s.firstDiffering c 0 rows) .memoryFail

/-! ## Activation -/

/-- The journal becomes ABSENT with reason NOT_CONFIGURED after an activation with N_S 0 (R173). -/
def State.dropJournal (s : State) : State :=
  { s.emptyJournal.restartSequence with epoch := none, anchorA := .invalid, anchorB := .invalid }

/-- The journal step of an APPLY (R173), given whether the area is unchanged. -/
def State.applyJournalStep (s : State) (unchanged : Bool) : State :=
  if s.nSlots = 0#16 then s.dropJournal.endOperation (.absent .notConfigured) .done none none
  else if s.journal = .draining && unchanged then s.endOperation .opened .done none none
  else { s with anchorA := .invalid, anchorB := .invalid }.enterFormatting

/-- The staged record becomes active, and every dependent setting with it (R172). The Region Map's entries, the
modes, the timings and the watermark are read from the active record. A held write for which the new mode has room is
not accepted here, but by HELD_WRITE_ACCEPT or as the next entry leaves (R115, R116; the model's choice, log
entry 38). -/
def State.activate (s : State) : State :=
  let record := s.applyRecord
  let unchanged := !((s.active.map fun c => areaDiffers c record).getD true)
  { s with
    active := some record
    staging := record
    designation := some s.applyTarget
    alertMask := record.alertMask
    configDegraded := false
    activationDue := false }.applyJournalStep unchanged

/-! ## Meanings -/

/-- DRAIN_END (R50): execution begins when no entry is ahead of the boundary and no journaled job is in progress;
no effect otherwise. -/
def execDrainEnd (s : State) : Host.Outcome State Fault Refusal :=
  if s.drainCanEnd then
    match s.longOp with
    | none => .next s
    | some o =>
      let s := { s with longOp := some { o with phase := .executing } }
      match o.kind with
      | .save => .next s.executeSave
      | .release => .next s.executeRelease
      | .undo => .next s.executeUndo
      | .commit => .next s.executeCommit
      | .rollback => .next s.executeRollback
      | .resume => .next s.executeResume
      | .format => .next s.executeFormat
      | .apply => .next s.executeApply
  else .next s

/-- APPLY_ACTIVATION (R172): made when a confirmed copy waits for it and no Row Engine job is in progress; no effect
otherwise. -/
def execApplyActivation (s : State) : Host.Outcome State Fault Refusal :=
  .next (if !s.inReset && s.activationDue && s.job.isNone then s.activate else s)

end Sys2Proof.Machine
end

