-- ==== Sys2Proof/Machine/RowEngine.lean ====
section
/-! DEFINITION. The Row Engine (chapter 7): choosing and classifying a job, its reads, freeze check and space
request, its appends, its target writes, and its end. -/
namespace Sys2Proof.Machine

/-! ## Classification -/

/-- What the journal state lets a journaled job do (R3). -/
inductive Traffic
  | proceeds | held | refused
  deriving DecidableEq, Repr

/-- The table of R3; `ahead` says that a write entry is ahead of the boundary mark. -/
def trafficFor (journal : JournalState) (isRead ahead : Bool) : Traffic :=
  match journal with
  | .opened => .proceeds
  | .draining => if isRead || ahead then .proceeds else .held
  | .committing => if isRead then .proceeds else .held
  | .undoing => .held
  | .rollingBack => .held
  | .scanning => .held
  | .formatting => .held
  | .broken _ => .refused
  | .absent _ => .refused

/-- The examination of a candidate (R132). -/
inductive Verdict
  | hold
  | refuse (kind : FaultKind) (row : Nat)
  | proceed (region : Fin 16)
  deriving DecidableEq, Repr

/-- Classification (R132): the region outcome first, then mode and freeze flag for a write (R103), then the journal
state for a JOURNALED region (R3). -/
def State.classify (s : State) (r : Request) (ahead : Bool) : Verdict :=
  match s.outcomeOf r.address r.length with
  | .reserved row => .refuse .reservedArea row
  | .notMapped row => .refuse .notMapped row
  | .split row => .refuse .regionSplit row
  | .entry i =>
    if !r.isRead && ((s.regions[i]).mode == .readOnly || s.freeze[i]) then
      .refuse .writeProtected (rowOf r.address)
    else if (s.regions[i]).mode = .journaled then
      match trafficFor s.journal r.isRead ahead with
      | .proceeds => .proceed i
      | .held => .hold
      | .refused => .refuse .journalUnavailable (rowOf r.address)
    else .proceed i

/-! ## Faults and endings -/

/-- A fault record of the Row Engine (R145). -/
def State.rowFault (s : State) (kind : FaultKind) (address : Address) (row : Nat) (slot : Option Nat)
    (posted partialDone : Bool) : FaultRecord where
  kind := kind
  source := .rowEngine
  address := some address
  row := some row
  slot := slot
  epoch := s.epochOrZero
  posted := posted
  partialDone := partialDone

/-- A write job ends (R144): the outcome goes to the Front Port Unit, the job record is cleared, and a FREEZE that
waited for the write stage to end is decided (R106). -/
def State.endWriteJob (s : State) (okay : Bool) : State := { s.retireHead okay with job := none }.decideIfDue

/-- A write job is refused or fails (R144, R145): its record is filed first. -/
def State.refuseWriteJob (s : State) (j : Job) (kind : FaultKind) (row : Nat) (slot : Option Nat)
    (partialDone : Bool) : State :=
  (s.file (s.rowFault kind j.request.address row slot (j.mark == some .posted) partialDone)).endWriteJob false

/-- The data bytes a row record of a read job delivers (R111, R143). -/
def deliveredBytes (rows : List JobRow) (row : Nat) : Option RowData :=
  match rows.find? (fun r => r.row == row) with
  | none => none
  | some r =>
    match r.result with
    | some (.good x) => some x.data
    | some (.bad _) => none
    | some .failed => none
    | none => none

/-- Every row of a read job was delivered (R111). -/
def allDelivered (rows : List JobRow) : Bool := rows.all fun r => (deliveredBytes rows r.row).isSome

/-- A read job ends: the read is answered and the pending read cleared (R111, R121, R144). -/
def State.endReadJob (s : State) (j : Job) : State :=
  { s.answer (allDelivered j.rows) (readBeats j.request.address j.request.length (deliveredBytes j.rows)) with
    pendingRead := none, readHeld := false, job := none }

/-! ## Rows of a job -/

/-- A row record of a read job: every row is read (R143). It has no enables, so its class says nothing. -/
def readJobRow (row : Nat) : JobRow :=
  { row := row, data := 0#128, enables := 0#16, cls := .untouched, needsRead := true, needsRecord := false,
    result := none }

/-- A row record of a write job (R134, R135): its bytes and enables, its class, whether it needs a record by the
segment rule, and whether it needs a read. -/
def State.writeJobRow (s : State) (address : Address) (beats : List Beat) (mode : RegionMode) (row : Nat) : JobRow :=
  let enables := rowEnables address beats row
  let cls := classOf enables
  let record := cls != .untouched && mode == .journaled && s.needsRecord row
  { row := row, data := rowBytes address beats row, enables := enables, cls := cls,
    needsRead := cls == .part || record, needsRecord := record, result := none }

/-- The first row record, from number i on, that `p` holds of. -/
def nextRow (p : JobRow → Bool) (rows : List JobRow) (i : Nat) : Option Nat :=
  (List.range rows.length).find? fun k => i ≤ k && ((rows[k]?).map p).getD false

/-- A row record that a write job writes: FULL or PARTIAL (R134). -/
def JobRow.touched (r : JobRow) : Bool := r.cls != .untouched

/-- The row number of row record i. -/
def Job.rowNumber (j : Job) (i : Nat) : Nat := ((j.rows[i]?).map JobRow.row).getD 0

/-- The row as read of row record i (R136); zeros before it has been read. -/
def Job.rowAsRead (j : Job) (i : Nat) : Row :=
  match (j.rows[i]?).bind JobRow.result with
  | some (.good r) => r
  | some (.bad r) => r
  | some .failed => { data := 0#128, side := 0#16 }
  | none => { data := 0#128, side := 0#16 }

/-- The image status of row record i: BAD or not (R22). -/
def Job.imageBad (j : Job) (i : Nat) : Bool :=
  match (j.rows[i]?).bind JobRow.result with
  | some (.bad _) => true
  | some (.good _) => false
  | some .failed => false
  | none => false

/-- The row to be written for row record i: the merge, its side word computed afresh (R141). -/
def Job.mergedRow (j : Job) (i : Nat) : Row :=
  match j.rows[i]? with
  | none => freshRow (j.rowNumber i) 0#128
  | some r => freshRow r.row (mergeBytes (j.rowAsRead i).data r.data r.enables)

/-- Row record i with its read result. -/
def Job.withResult (j : Job) (i : Nat) (result : RowRead) : Job :=
  { j with rows := j.rows.modify i fun (r : JobRow) => { r with result := some result } }

/-! ## Stages of a write job -/

/-- The read of row record i is issued (R136, R143). -/
def State.issueRead (s : State) (j : Job) (i : Nat) : State :=
  { s with job := some { j with phase := .reading i } }.requestPort .front (.read (j.rowNumber i))

/-- The target write of row record i is issued (R142). -/
def State.issueWrite (s : State) (j : Job) (i : Nat) : State :=
  { s with job := some { j with phase := .writing i } }.requestPort .front (.write (j.rowNumber i) (j.mergedRow i))

/-- WRITING is entered: the target writes in increasing row order (R142). -/
def State.startWriting (s : State) (j : Job) : State :=
  match nextRow JobRow.touched j.rows 0 with
  | some i => s.issueWrite j i
  | none => { s with job := some j }.endWriteJob true

/-- The header of an append for row record i in a slot (R22): the back-link is the row's index entry. -/
def State.appendHeader (s : State) (j : Job) (i : Nat) (sequence : Word) : Header :=
  recordHeader (j.imageBad i) s.epochOrZero sequence (j.rowNumber i) (indexGet s.index (j.rowNumber i))
    (j.rowAsRead i).side

/-- One row operation of an append is issued on FRONT (R22); the header mark counts the slot when the header write
is issued (R17). -/
def State.issueAppend (s : State) (j : Job) (i slot : Nat) (sequence : Word) (step : AppendStep) : State :=
  let s := { s with job := some { j with phase := .appending i slot sequence step } }
  match step with
  | .headerClear => s.requestPort .front (.write (s.headerRow slot) (s.clearedHeader slot))
  | .imageWrite =>
    s.requestPort .front (.write (s.imageRow slot) (freshRow (s.imageRow slot) (j.rowAsRead i).data))
  | .headerWrite =>
    (s.raiseHeaderMark slot).requestPort .front
      (.write (s.headerRow slot) (freshRow (s.headerRow slot) (s.appendHeader j i sequence).encode))

/-- An append begins (R22): it takes slot tail and the next sequence number, and clears the header first when the
slot lies below the header mark. -/
def State.startAppend (s : State) (j : Job) (i : Nat) : State :=
  s.consumeSequence.issueAppend j i s.tail s.nextSequence
    (if s.tail < s.headerMark then .headerClear else .imageWrite)

/-- The head's job state changes (R117). -/
def State.markHead (s : State) (f : Entry → Entry) : State :=
  match s.queue with
  | [] => s
  | e :: rest => { s with queue := f e :: rest }

/-- The job enters space-wait (R20, R138): parked without the rows it has read, its entry marked SPACE_WAIT. -/
def State.park (s : State) (j : Job) : State :=
  let s := s.markHead fun e => { e with state := .spaceWait }
  let s := { s with
    job := none
    parked := some { j with phase := .parked, rows := j.rows.map fun (r : JobRow) => { r with result := none } } }
  s.decideIfDue.spaceWaitEntered

/-- The space request for the rows that need a record (R19, R137). -/
def State.requestSpace (s : State) (j : Job) : State :=
  match nextRow JobRow.needsRecord j.rows 0 with
  | none => s.startWriting j
  | some i =>
    if s.spaceGranted (j.rows.filter JobRow.needsRecord).length then s.startAppend j i
    else
      match (s.active.map ConfigRecord.policy).getD .hold with
      | .refuse => s.refuseWriteJob j .journalFull (j.rowNumber i) none false
      | .hold => s.park j

/-- The second freeze check, after the job's reads, and the stage that follows it (R107, R134, R137). -/
def State.afterReads (s : State) (j : Job) : State :=
  let s := { s with job := some j }
  if s.freeze[j.region] then s.refuseWriteJob j .writeProtected (rowOf j.request.address) none false
  else s.requestSpace j

/-- A write job begins its reads, or goes straight to the second freeze check (R135). -/
def State.startWriteJob (s : State) (j : Job) : State :=
  match nextRow JobRow.needsRead j.rows 0 with
  | some i => s.issueRead j i
  | none => s.afterReads j

/-! ## Results of FRONT operations -/

/-- What a row operation delivers to its requester (R148): a row, read or written, or the final failure (R152). -/
inductive Delivery
  | done (r : Row)
  | failed (kind : MemFault)
  deriving DecidableEq, Repr

/-- The next row of a read job is read, or the job ends (R143). -/
def State.readJobNext (s : State) (j : Job) (i : Nat) : State :=
  match nextRow JobRow.needsRead j.rows (i + 1) with
  | some k => s.issueRead j k
  | none => s.endReadJob j

/-- A row of a read job has been read, or its read has failed (R143). -/
def State.readJobRowDone (s : State) (j : Job) (i : Nat) (d : Delivery) : State :=
  match d with
  | .done r =>
    if rowGood (j.rowNumber i) r then s.readJobNext (j.withResult i (.good r)) i
    else
      (s.file (s.rowFault .rowCheck j.request.address (j.rowNumber i) none false false)).readJobNext
        (j.withResult i (.bad r)) i
  | .failed k =>
    (s.file (s.rowFault k.kind j.request.address (j.rowNumber i) none false false)).readJobNext
      (j.withResult i .failed) i

/-- The next row of a write job is read, or its reads are complete (R136). -/
def State.writeJobNext (s : State) (j : Job) (i : Nat) : State :=
  match nextRow JobRow.needsRead j.rows (i + 1) with
  | some k => s.issueRead j k
  | none => s.afterReads j

/-- A row of a write job has been read (R136): a BAD PARTIAL row or a failed read stops the job. -/
def State.writeJobRowDone (s : State) (j : Job) (i : Nat) (d : Delivery) : State :=
  match d with
  | .done r =>
    if rowGood (j.rowNumber i) r then s.writeJobNext (j.withResult i (.good r)) i
    else if ((j.rows[i]?).map JobRow.cls) = some .part then
      s.refuseWriteJob j .rowCheck (j.rowNumber i) none false
    else s.writeJobNext (j.withResult i (.bad r)) i
  | .failed k => s.refuseWriteJob j k.kind (j.rowNumber i) none false

/-- A row operation of an append has ended (R22, R24): the next one is issued, or leave is granted once the header
write has completed; a failure refuses the job and names the slot (R140). -/
def State.appendDone (s : State) (j : Job) (i slot : Nat) (sequence : Word) (step : AppendStep) (d : Delivery) :
    State :=
  match d with
  | .failed k => s.refuseWriteJob j k.kind (j.rowNumber i) (some slot) false
  | .done _ =>
    match step with
    | .headerClear => s.issueAppend j i slot sequence .imageWrite
    | .imageWrite => s.issueAppend j i slot sequence .headerWrite
    | .headerWrite =>
      let s := s.addRecord (j.rowNumber i) (j.rowAsRead i).side { imageBad := j.imageBad i, sequence := sequence }
      match nextRow JobRow.needsRecord j.rows (i + 1) with
      | some k => s.startAppend j k
      | none => s.startWriting j

/-- A target write has ended (R142): PARTIAL_DONE is set when an earlier target row was written. -/
def State.targetDone (s : State) (j : Job) (i : Nat) (d : Delivery) : State :=
  match d with
  | .failed k =>
    s.refuseWriteJob j k.kind (j.rowNumber i) none ((j.rows.take i).any JobRow.touched)
  | .done _ =>
    match nextRow JobRow.touched j.rows (i + 1) with
    | some k => s.issueWrite j k
    | none => s.endWriteJob true

/-- A result on FRONT goes to the job in progress, by its phase (R130). -/
def State.deliverFront (s : State) (d : Delivery) : State :=
  match s.job with
  | none => s
  | some j =>
    match j.phase with
    | .reading i => if j.request.isRead then s.readJobRowDone j i d else s.writeJobRowDone j i d
    | .appending i slot sequence step => s.appendDone j i slot sequence step d
    | .writing i => s.targetDone j i d
    | .parked => s

/-! ## Taking a job -/

/-- The pending read is examined (R131, R132): held, refused, or taken as a read job. -/
def State.examineRead (s : State) (p : PendingRead) : State :=
  let r := Request.read p.address p.beats
  match s.classify r false with
  | .hold => { s with readHeld := true }
  | .refuse kind row =>
    { (s.file (s.rowFault kind p.address row none false false)).answerRefused r with
      pendingRead := none, readHeld := false }
  | .proceed i =>
    { s with pendingRead := some { p with taken := true } }.issueRead
      { source := .pendingRead, request := r, mark := none, region := i, mode := (s.regions[i]).mode
        frozen := s.freeze[i], rows := (rowsOf p.address p.beats).map readJobRow, phase := .reading 0 } 0

/-- The head is taken (R117, R122): TAKEN, its hold timer stopped for good. -/
def State.takeHead (s : State) : State := s.markHead fun e => { e with state := .taken, timed := false }

/-- The job record of a head that a region entry accepts (R130, R134, R135). -/
def State.writeJob (s : State) (e : Entry) (i : Fin 16) : Job :=
  { source := .queueHead e.number, request := e.request, mark := some e.mark, region := i
    mode := (s.regions[i]).mode, frozen := s.freeze[i]
    rows := e.rows.map (s.writeJobRow e.address e.beats (s.regions[i]).mode), phase := .reading 0 }

/-- The head of the post queue is examined (R131, R132): held, refused, or taken as a write job. -/
def State.examineHead (s : State) (e : Entry) : State :=
  match s.classify e.request (s.ahead e) with
  | .hold => { s with headHeld := true }
  | .refuse kind row =>
    (s.takeHead.file (s.rowFault kind e.address row none (e.mark == .posted) false)).endWriteJob false
  | .proceed i => s.takeHead.startWriteJob (s.writeJob e i)

/-- The pending read the Front Port Unit offers: eligible, not taken, and not marked held (R120, R131). -/
def State.offeredRead (s : State) : Option PendingRead :=
  match s.pendingRead with
  | none => none
  | some p => if s.readEligible p && !p.taken && !s.readHeld then some p else none

/-- The head the Front Port Unit offers: NOT_STARTED and not marked held (R118, R131). -/
def State.offeredHead (s : State) : Option Entry :=
  match s.queue with
  | [] => none
  | e :: _ => if e.state == .notStarted && !s.headHeld then some e else none

/-- The head is examined when one is offered. -/
def State.examineOfferedHead (s : State) : State :=
  match s.offeredHead with
  | none => s
  | some e => s.examineHead e

/-- The Row Engine examines its candidates in order of preference (R131): the pending read, and the head when no
read is offered or the read is held. -/
def State.examine (s : State) : State :=
  match s.offeredRead with
  | none => s.examineOfferedHead
  | some p =>
    if s.classify (.read p.address p.beats) false = .hold then (s.examineRead p).examineOfferedHead
    else s.examineRead p

/-! ## Meaning -/

/-- JOB_TAKE (R131): in IDLE the Row Engine examines its candidates, unless an activation waits (R172); no effect
otherwise. -/
def execJobTake (s : State) : Host.Outcome State Fault Refusal :=
  .next (if !s.inReset && s.job.isNone && !s.activationDue then s.examine else s)

end Sys2Proof.Machine
end

