-- ==== Sys2Proof/Machine/MemoryPort.lean ====
section
/-! DEFINITION. The Memory Port Unit's attempts (R149 to R153) and what each MAINT result makes the Journal Unit
and the Configuration Unit do next. -/
namespace Sys2Proof.Machine

/-- The row operation's row number. -/
def RowOp.row : RowOp → Nat
  | .read row => row
  | .write row _ => row

/-- A result on MAINT goes to the start or the long operation, by the purpose of its row operation. The record of a
format's failed header read is filed before the epoch is dropped (R69), and so carries it (the model's choice, log entry
34). -/
def State.deliverMaint (s : State) (d : Delivery) : State :=
  match s.maint, d with
  | none, _ => s
  | some (.loadRow c i rows first), .done r => s.loadRowRead c i rows first r
  | some (.loadRow c i _ first), .failed k => s.loadRowFailed c i first k.kind
  | some (.anchorRead c), .done r =>
    s.anchorClassified c (classifyAnchor s.base s.nSlots (s.anchorRow c) r)
  | some (.anchorRead c), .failed k =>
    (s.file { s.journalFault k.kind (s.anchorRow c) none with epoch := 0#32 }).anchorClassified c .invalid
  | some (.scanHeader k headers accepted), .done r => s.headerScanned k headers accepted r
  | some (.scanHeader k headers accepted), .failed f => s.scanFailed k headers accepted f.kind
  | some (.restoreImage j), .done r => s.imageRead j r
  | some (.restoreImage j), .failed k => s.restoreStopped j k.kind
  | some (.restoreTarget _), .done _ => s.targetWritten
  | some (.restoreTarget j), .failed k => s.restoreStopped j k.kind
  | some (.wipeHeader k forFormat), .done _ => s.wipeWritten k forFormat
  | some (.wipeHeader k forFormat), .failed f => s.wipeFailed k forFormat f.kind
  | some (.anchorWrite goal c epoch), .done _ =>
    s.runMaint (.anchorConfirm goal c epoch) (.read (s.anchorRow c))
  | some (.anchorWrite goal c _), .failed k => s.anchorFailed goal c false k.kind
  | some (.anchorConfirm goal c epoch), .done r => s.anchorReadBack goal c epoch r
  | some (.anchorConfirm goal c _), .failed k => s.anchorFailed goal c false k.kind
  | some (.formatAnchor c greatest), .done r =>
    s.formatAnchorRead c (raiseEpoch greatest (anchorPresent (s.anchorRow c) r) (Anchor.decode r.data).epoch)
  | some (.formatAnchor c greatest), .failed k =>
    (s.file (s.journalFault k.kind (s.anchorRow c) none)).formatAnchorRead c greatest
  | some (.formatHeader k greatest), .done r =>
    s.formatHeaders (k + 1)
      (raiseEpoch greatest (headerPresent (s.headerRow k) r) (Header.decode r.data).epoch)
  | some (.formatHeader k _), .failed f =>
    (s.file (s.journalFault f.kind (s.headerRow k) (some k))).formatFailed f.kind
  | some .slotZeroClear, .done _ => s.startCopyWrite s.applyTarget
  | some .slotZeroClear, .failed k => s.applyFailed (s.headerRow 0) k.kind
  | some (.copyClear c), .done _ => s.writeBody c 0
  | some (.copyClear c), .failed k => s.applyFailed c.closingRow k.kind
  | some (.copyBody c i), .done _ => if i < 14 then s.writeBody c (i + 1) else s.writeClosing c
  | some (.copyBody c i), .failed k => s.applyFailed (c.firstRow + i) k.kind
  | some (.copyClose c), .done _ => s.confirmRow c 0 []
  | some (.copyClose c), .failed k => s.applyFailed c.closingRow k.kind
  | some (.copyConfirm c i rows), .done r =>
    if i < 15 then s.confirmRow c (i + 1) (rows ++ [r]) else s.copyReadBack c (rows ++ [r])
  | some (.copyConfirm c i _), .failed k => s.applyFailed (c.firstRow + i) k.kind

/-- A result goes to its requester (R148, R152). -/
def State.deliver (s : State) (r : Requester) (d : Delivery) : State :=
  match r with
  | .front => s.deliverFront d
  | .maint => s.deliverMaint d

/-- An operation ends: the port becomes IDLE and the other requester's waiting request is granted (R156), and the
result goes to the operation's own requester, which may ask for its next operation. -/
def State.finishOperation (s : State) (f : Flight) (d : Delivery) : State :=
  ({ s with port := .idle }.arbitrate).deliver f.requester d

/-- A failed or timed-out attempt is retried at once, or fails the operation finally with the kind of its last
attempt (R151, R152). -/
def State.attemptFailed (s : State) (f : Flight) (kind : MemFault) : State :=
  if f.attempt ≤ f.retries.toNat then
    { s with
      port := .inFlight { f with attempt := f.attempt + 1, last := some kind }
      retryCounter := countUp s.retryCounter }
  else s.finishOperation f (.failed kind)

/-- What an attempt that did not complete leaves in memory: a write leaves its residue, a read nothing (R149). -/
def State.leaveResidue (s : State) (op : RowOp) (left : Residue) : State :=
  match op with
  | .read _ => s
  | .write row content =>
    { s with mem := s.mem.write row (residueRow row (s.mem.read row) content left) }

/-- A completed attempt in the memory device: a write's row is persistent; a read delivers the stored row, or the
row the device altered it to (R93, R149). The result is the memory and the row delivered. -/
def completeAttempt (mem : Memory) (op : RowOp) (delivered : Option Row) : Memory × Row :=
  match op with
  | .write row content => (mem.write row content, content)
  | .read row =>
    match delivered with
    | none => (mem, mem.read row)
    | some r => (mem.write row r, r)

/-! ## Meanings -/

/-- MEMORY_ATTEMPT_DONE (R149, R151). Outside IN_FLIGHT an answer of the device is not taken. -/
def execMemoryAttemptDone (delivered : Option Row) (s : State) : Host.Outcome State Fault Refusal :=
  match s.port with
  | .idle => .next s
  | .aborting _ => .next s
  | .inFlight f =>
    .next ({ s with mem := (completeAttempt s.mem f.op delivered).1 }.finishOperation f
      (.done (completeAttempt s.mem f.op delivered).2))

/-- MEMORY_ATTEMPT_FAIL (R149, R151, R152). Outside IN_FLIGHT an answer of the device is not taken. -/
def execMemoryAttemptFail (left : Residue) (s : State) : Host.Outcome State Fault Refusal :=
  match s.port with
  | .idle => .next s
  | .aborting _ => .next s
  | .inFlight f => .next ((s.leaveResidue f.op left).attemptFailed f .fail)

/-- ATTEMPT_TIMER_EXPIRY (R150): an abort request is presented and ABORTING entered; no timer runs otherwise. -/
def execAttemptTimerExpiry (s : State) : Host.Outcome State Fault Refusal :=
  match s.port with
  | .idle => .next s
  | .aborting _ => .next s
  | .inFlight f => .next { s with port := .aborting f }

/-- ABORT_ACKNOWLEDGE (R150): in ABORTING the attempt ends with TIMEOUT. -/
def execAbortAcknowledge (left : Residue) (s : State) : Host.Outcome State Fault Refusal :=
  match s.port with
  | .idle => .next s
  | .inFlight _ => .next s
  | .aborting f => .next ((s.leaveResidue f.op left).attemptFailed f .timeout)

end Sys2Proof.Machine
end

