-- ==== Sys2Proof/Machine/Link.lean ====
section
/-! DEFINITION. The control link: the response buffer (R179), read transfers and frame errors (R176, R178), the
short commands (R181) and the long commands (R183). -/
namespace Sys2Proof.Machine

/-! ## Responses -/

/-- The response buffer becomes READY with a response frame (R179, R180), and data out has carried the lead byte
and zeros for the transfer's `clocked` bytes (R176). -/
def State.respond (s : State) (clocked : Nat) (status : Status) (payload : List Byte) : State :=
  { s with
    response := .ready (responseFrame status payload)
    linkOut := leadByte :: List.replicate (clocked - 1) 0#8 }

/-- A command refused with its reason (R180). -/
def State.respondRefused (s : State) (clocked : Nat) (reason : Reason) : State :=
  s.respond clocked .refused [reason.code]

/-- A short command answered OK (R181). -/
def State.respondOk (s : State) (clocked : Nat) (payload : List Byte) : State := s.respond clocked .ok payload

/-- While the part is held in reset the link serves no transfer (R74, R176). -/
def State.onLink (s : State) (f : State → State) : State := if s.inReset then s else f s

/-- The frame a read transfer shifts out: the held one, or NO_RESPONSE (R179). -/
def ResponseBuffer.frame : ResponseBuffer → List Byte
  | .ready frame => frame
  | .none => responseFrame .noResponse []
  | .pending => responseFrame .noResponse []

/-- A read transfer of `clocked` whole bytes: the lead byte, the frame, and 00h after the frame's end (R176,
R179). It consumes nothing. -/
def State.readResponse (s : State) (clocked : Nat) : State :=
  if clocked = 0 then s
  else
    { s with
      linkOut := leadByte :: (s.response.frame ++ List.replicate (clocked - 1) 0#8).take (clocked - 1) }

/-! ## Short commands -/

/-- FAULT_POP (R194): the oldest record leaves the log; the dropped counter is reset when the log becomes empty. -/
def State.popFault (s : State) : State :=
  match s.log with
  | [] => s.respondOk 2 (faultPayload none 0#8 0)
  | f :: rest =>
    { s with log := rest, dropped := if rest.isEmpty then 0#8 else s.dropped }.respondOk 2
      (faultPayload (some f) s.dropped rest.length)

/-- The answer to a CFG_READ of one record (R166). -/
def State.respondField (s : State) (c : ConfigRecord) (identifier : Byte) : State :=
  match fieldValue c identifier with
  | some v => s.respondOk 4 (bytes4 v)
  | none => s.respondRefused 4 .invalidField

/-- CFG_READ (R166, R202): selector 00h is ACTIVE and 01h STAGED. Where no active configuration exists and the
identifier names no field, both refusals apply and the spec orders neither (log entry 2). Between a first APPLY's
activation and its end an active configuration exists, and its field is answered, although the part is still
UNCONFIGURED (the model's choice, log entry 32). -/
def State.readField (s : State) (selector identifier : Byte) : State :=
  if selector = 0x01#8 then s.respondField s.staging identifier
  else if selector = 0x00#8 then
    match s.active with
    | some c => s.respondField c identifier
    | none =>
      if (fieldValue s.staging identifier).isSome then s.respondRefused 4 .state
      else
        { s with freeCount := s.freeCount + 1 }.respondRefused 4
          (if Config.freeChoice s.freeCount then .state else .invalidField)
  else s.respondRefused 4 .invalidField

/-- The staging record may not be edited: the load has not ended, or an APPLY is in progress (R167). -/
def State.stagingLocked (s : State) : Bool :=
  !s.loadEnded || (s.longOp.map LongOp.kind) == some .apply

/-- CFG_STAGE (R167). -/
def State.stageField (s : State) (identifier : Byte) (value : Word) : State :=
  if s.stagingLocked then s.respondRefused 7 .state
  else
    match stagedWidth identifier with
    | none => s.respondRefused 7 .invalidField
    | some w =>
      if value.toNat < 2 ^ w then { s with staging := setField s.staging identifier value }.respondOk 7 []
      else s.respondRefused 7 .invalidField

/-- CFG_COPY (R167). -/
def State.copyActive (s : State) : State :=
  if s.stagingLocked then s.respondRefused 2 .state
  else
    match s.active with
    | some c => { s with staging := c }.respondOk 2 []
    | none => s.respondRefused 2 .state

/-- ALERT_MASK (R182). -/
def State.setAlertMask (s : State) (mask : Byte) : State :=
  if mask.extractLsb' 6 2 ≠ 0#2 then s.respondRefused 3 .invalidArgument
  else if !s.loadEnded then s.respondRefused 3 .state
  else { s with alertMask := mask.extractLsb' 0 6 }.respondOk 3 []

/-- Checks 2 and 3 of FREEZE for a PLAIN or JOURNALED entry (R105). -/
def State.freezeRefusal (s : State) (region : Fin 16) : Option Reason :=
  let e := s.regions[region]
  if (s.longOp.map fun o => (o.kind, o.phase)) = some (.apply, .executing) then some .state
  else if e.mode = .journaled && s.journal == .scanning then some .state
  else if e.mode = .journaled && s.recordsInRegion e then some .recordsPresent
  else none

/-- A FREEZE that R105 answers OK: deferred while a write job of the region is in its write stage (R106), and set at
once otherwise. -/
def State.acceptFreeze (s : State) (region : Fin 16) : State :=
  if s.writeStageOf region && !s.freeze[region] then
    { s with deferredFreeze := some region, response := .pending, linkOut := leadByte :: List.replicate 2 0#8 }
  else { s with freeze := s.freeze.set region true }.respondOk 3 []

/-- FREEZE (R105). Check 1 reads the entries in force (R100), so that between a first APPLY's activation and its end
an entry that is PLAIN or JOURNALED passes it, although the part is still UNCONFIGURED (the model's choice, log
entry 30). -/
def State.freezeRegion (s : State) (region : Byte) : State :=
  if h : region.toNat < 16 then
    match (s.regions[(⟨region.toNat, h⟩ : Fin 16)]).mode with
    | .off => s.respondRefused 3 .invalidRegion
    | .readOnly => s.respondRefused 3 .invalidRegion
    | .plain | .journaled =>
      match s.freezeRefusal ⟨region.toNat, h⟩ with
      | some reason => s.respondRefused 3 reason
      | none => s.acceptFreeze ⟨region.toNat, h⟩
  else s.respondRefused 3 .invalidRegion

/-! ## Long commands -/

/-- The taking decision of a journal command, from the journal state (R45); none when it is taken. In the states
in which a long operation is always in progress the decision is never reached. -/
def journalTaking (journal : JournalState) : Option Reason :=
  match journal with
  | .opened => none
  | .absent _ => some .noJournal
  | .broken _ | .scanning | .draining | .committing | .rollingBack | .undoing | .formatting => some .state

/-- The taking decision of RESUME (R45). -/
def resumeTaking (journal : JournalState) : Option Reason :=
  match journal with
  | .broken _ => none
  | .absent _ => some .noJournal
  | .opened | .scanning | .draining | .committing | .rollingBack | .undoing | .formatting => some .state

/-- The taking decision of FORMAT (R45). -/
def formatTaking (journal : JournalState) : Option Reason :=
  match journal with
  | .opened => none
  | .broken _ => none
  | .absent .notConfigured => some .noJournal
  | .absent .anchorLost => none
  | .absent .anchorMismatch => none
  | .scanning | .draining | .committing | .rollingBack | .undoing | .formatting => some .state

/-- The taking decision of APPLY (R168). -/
def applyTaking (journal : JournalState) : Option Reason :=
  match journal with
  | .opened => none
  | .absent _ => none
  | .broken _ | .scanning | .draining | .committing | .rollingBack | .undoing | .formatting => some .state

/-- The taking decision of a long command (R45, R168). -/
def takingRefusal (journal : JournalState) : OpKind → Option Reason
  | .save | .release | .undo | .commit | .rollback => journalTaking journal
  | .resume => resumeTaking journal
  | .format => formatTaking journal
  | .apply => applyTaking journal

/-- A long command is decided (R183, steps 2 to 4): BUSY, refused, or taken and answered STARTED. -/
def State.longCommand (s : State) (clocked : Nat) (kind : OpKind) (skip : Bool) : State :=
  if s.operating = .starting || s.longOp.isSome then s.respond clocked .busy []
  else if s.operating = .unconfigured && kind != .apply then s.respondRefused clocked .state
  else
    match takingRefusal s.journal kind with
    | some reason => s.respondRefused clocked reason
    | none => (s.takeOperation kind .link skip).respond clocked .started []

/-- RESUME: its argument byte is checked first (R183, step 1). -/
def State.resumeCommand (s : State) (skip : Byte) : State :=
  if skip = 0x00#8 then s.longCommand 3 .resume false
  else if skip = 0x01#8 then s.longCommand 3 .resume true
  else s.respondRefused 3 .invalidArgument

/-! ## Meanings -/

/-- RESPONSE_READ (R176, R179). -/
def execResponseRead (clocked : Nat) (s : State) : Host.Outcome State Fault Refusal :=
  .next (s.onLink fun s => s.readResponse clocked)

/-- FRAME_ERROR (R178): the response FRAME_ERROR; a transfer that carries no whole byte is ignored (R176). -/
def execFrameError (bytes : List Byte) (s : State) : Host.Outcome State Fault Refusal :=
  .next (s.onLink fun s => if bytes.isEmpty then s else s.respond bytes.length .frameError [])

/-- UNKNOWN_COMMAND (R178). -/
def execUnknownCommand (bytes : List Byte) (s : State) : Host.Outcome State Fault Refusal :=
  .next (s.onLink fun s => if bytes.isEmpty then s else s.respond bytes.length .unknownCommand [])

/-- STATUS (R198). -/
def execStatus (s : State) : Host.Outcome State Fault Refusal :=
  .next (s.onLink fun s => s.respondOk 2 s.statusPayload)

/-- IDENT (R199). -/
def execIdent (s : State) : Host.Outcome State Fault Refusal :=
  .next (s.onLink fun s => s.respondOk 2 identPayload)

/-- COMPLETION (R186): the record is returned and emptied. -/
def execCompletion (s : State) : Host.Outcome State Fault Refusal :=
  .next (s.onLink fun s => { s with completion := none }.respondOk 2 (completionPayload s.completion))

/-- FAULT_POP (R194). -/
def execFaultPop (s : State) : Host.Outcome State Fault Refusal := .next (s.onLink State.popFault)

/-- CFG_READ (R166). -/
def execCfgRead (selector identifier : Byte) (s : State) : Host.Outcome State Fault Refusal :=
  .next (s.onLink fun s => s.readField selector identifier)

/-- CFG_STAGE (R167). -/
def execCfgStage (identifier : Byte) (value : Word) (s : State) : Host.Outcome State Fault Refusal :=
  .next (s.onLink fun s => s.stageField identifier value)

/-- CFG_COPY (R167). -/
def execCfgCopy (s : State) : Host.Outcome State Fault Refusal := .next (s.onLink State.copyActive)

/-- ALERT_MASK (R182). -/
def execAlertMask (mask : Byte) (s : State) : Host.Outcome State Fault Refusal :=
  .next (s.onLink fun s => s.setAlertMask mask)

/-- FREEZE (R105, R106). -/
def execFreeze (region : Byte) (s : State) : Host.Outcome State Fault Refusal :=
  .next (s.onLink fun s => s.freezeRegion region)

/-- SAVE (R45, R49, R183). -/
def execSave (s : State) : Host.Outcome State Fault Refusal :=
  .next (s.onLink fun s => s.longCommand 2 .save false)

/-- RELEASE (R45, R49, R183). -/
def execRelease (s : State) : Host.Outcome State Fault Refusal :=
  .next (s.onLink fun s => s.longCommand 2 .release false)

/-- UNDO (R45, R47, R183). -/
def execUndo (s : State) : Host.Outcome State Fault Refusal :=
  .next (s.onLink fun s => s.longCommand 2 .undo false)

/-- COMMIT (R45, R48, R183). -/
def execCommit (s : State) : Host.Outcome State Fault Refusal :=
  .next (s.onLink fun s => s.longCommand 2 .commit false)

/-- ROLLBACK (R45, R47, R183). -/
def execRollback (s : State) : Host.Outcome State Fault Refusal :=
  .next (s.onLink fun s => s.longCommand 2 .rollback false)

/-- RESUME (R45, R183). -/
def execResume (skip : Byte) (s : State) : Host.Outcome State Fault Refusal :=
  .next (s.onLink fun s => s.resumeCommand skip)

/-- FORMAT (R45, R49, R183). -/
def execFormat (s : State) : Host.Outcome State Fault Refusal :=
  .next (s.onLink fun s => s.longCommand 2 .format false)

/-- APPLY (R168, R183). -/
def execApply (s : State) : Host.Outcome State Fault Refusal :=
  .next (s.onLink fun s => s.longCommand 2 .apply false)

end Sys2Proof.Machine
end

