-- ==== Sys2Proof/Machine/Lines.lean ====
section
/-! DEFINITION. The single lines: CKPT (R187, R188), PFW (R83, R85), and RST with the beginning of a start (R74,
R75, R86). -/
namespace Sys2Proof.Machine

/-- A request on CKPT is latched; a request that finds the latch PENDING is merged into it (R188). -/
def State.latchCkpt (s : State) : State := { s with ckptLatch := true }

/-- A checkpoint request (R188). -/
def State.checkpointRequest (s : State) : State :=
  match s.operating with
  | .starting => s.latchCkpt
  | .unconfigured => s.file s.ckptFault
  | .running | .quiescing | .quiesced =>
    if s.longOp.isSome then s.latchCkpt
    else if s.journal = .opened then s.takeOperation .commit .line false
    else s.file s.ckptFault

/-- The part in reset (R74): every block at its start values (R86), the memory device with what an attempt in
flight left in its row (R159), and the levels of PFW and CKPT as they are. -/
def State.resetWith (s : State) (left : Residue) : State :=
  { State.reset with
    pending := s.pending
    pfw := s.pfw
    ckptHigh := s.ckptHigh
    freeCount := s.freeCount
    mem :=
      match s.port with
      | .idle => s.mem
      | .inFlight f => (s.leaveResidue f.op left).mem
      | .aborting f => (s.leaveResidue f.op left).mem }

/-- CKPT_EDGE (R188). In reset CKPT is not watched (R187). -/
def execCkptEdge (s : State) : Host.Outcome State Fault Refusal :=
  .next (if s.inReset then s else { s with ckptHigh := true }.checkpointRequest)

/-- PFW_ASSERT (R83): RUNNING becomes QUIESCING; in any other state only the level is taken (R81, R82). -/
def execPfwAssert (s : State) : Host.Outcome State Fault Refusal :=
  .next (if !s.inReset && s.operating == .running then { s with pfw := true }.enterQuiescing
    else { s with pfw := true })

/-- PFW_DEASSERT (R85): QUIESCING and QUIESCED become RUNNING, acceptance opens, and the held request is taken in
(R114). -/
def execPfwDeassert (s : State) : Host.Outcome State Fault Refusal :=
  .next (if !s.inReset && (s.operating == .quiescing || s.operating == .quiesced) then
      { s with pfw := false, operating := .running }.takeInHeld
    else { s with pfw := false })

/-- RST_ASSERT (R74, R86, R159). -/
def execRstAssert (left : Residue) (s : State) : Host.Outcome State Fault Refusal := .next (s.resetWith left)

/-- START (R75): the part leaves reset, CKPT's level becomes the reference (R187), and the configuration load asks
for its first row on MAINT (R164). No effect outside reset. -/
def execStart (ckptHigh : Bool) (s : State) : Host.Outcome State Fault Refusal :=
  .next (if s.inReset then { s with inReset := false, ckptHigh := ckptHigh }.loadRow .a 0 [] none else s)

end Sys2Proof.Machine
end

