-- ==== Sys2Proof/Machine/Dispatch.lean ====
section
/-! DEFINITION. The meaning of each command: one arm per constructor of Instr. -/
namespace Sys2Proof.Machine

def exec (i : Instr) (s : State) : Host.Outcome State Fault Refusal :=
  match i with
  | .frontReadRequest address beats => Sys2Proof.Machine.execFrontReadRequest address beats s
  | .frontWriteRequest address beats => Sys2Proof.Machine.execFrontWriteRequest address beats s
  | .heldWriteAccept => Sys2Proof.Machine.execHeldWriteAccept s
  | .holdTimerExpiry => Sys2Proof.Machine.execHoldTimerExpiry s
  | .jobTake => Sys2Proof.Machine.execJobTake s
  | .memoryAttemptDone delivered => Sys2Proof.Machine.execMemoryAttemptDone delivered s
  | .memoryAttemptFail left => Sys2Proof.Machine.execMemoryAttemptFail left s
  | .attemptTimerExpiry => Sys2Proof.Machine.execAttemptTimerExpiry s
  | .abortAcknowledge left => Sys2Proof.Machine.execAbortAcknowledge left s
  | .drainEnd => Sys2Proof.Machine.execDrainEnd s
  | .applyActivation => Sys2Proof.Machine.execApplyActivation s
  | .freezeDeferredDecision => Sys2Proof.Machine.execFreezeDeferredDecision s
  | .quiescedEntry => Sys2Proof.Machine.execQuiescedEntry s
  | .ckptEdge => Sys2Proof.Machine.execCkptEdge s
  | .pfwAssert => Sys2Proof.Machine.execPfwAssert s
  | .pfwDeassert => Sys2Proof.Machine.execPfwDeassert s
  | .rstAssert left => Sys2Proof.Machine.execRstAssert left s
  | .start ckptHigh => Sys2Proof.Machine.execStart ckptHigh s
  | .responseRead clocked => Sys2Proof.Machine.execResponseRead clocked s
  | .frameError bytes _ => Sys2Proof.Machine.execFrameError bytes s
  | .unknownCommand bytes => Sys2Proof.Machine.execUnknownCommand bytes s
  | .status => Sys2Proof.Machine.execStatus s
  | .ident => Sys2Proof.Machine.execIdent s
  | .completion => Sys2Proof.Machine.execCompletion s
  | .faultPop => Sys2Proof.Machine.execFaultPop s
  | .cfgRead selector identifier => Sys2Proof.Machine.execCfgRead selector identifier s
  | .cfgStage identifier value => Sys2Proof.Machine.execCfgStage identifier value s
  | .cfgCopy => Sys2Proof.Machine.execCfgCopy s
  | .alertMask mask => Sys2Proof.Machine.execAlertMask mask s
  | .freeze region => Sys2Proof.Machine.execFreeze region s
  | .save => Sys2Proof.Machine.execSave s
  | .release => Sys2Proof.Machine.execRelease s
  | .undo => Sys2Proof.Machine.execUndo s
  | .commit => Sys2Proof.Machine.execCommit s
  | .rollback => Sys2Proof.Machine.execRollback s
  | .resume skip => Sys2Proof.Machine.execResume skip s
  | .format => Sys2Proof.Machine.execFormat s
  | .apply => Sys2Proof.Machine.execApply s

end Sys2Proof.Machine
end

