-- ==== Sys2Proof/Safety.lean ====
section
/-! DEFINITION. The laws of the part that every step keeps, as predicates of the state. Each is a claim of the
statements, never a hypothesis of a meaning. -/
namespace Sys2Proof.Machine

/-- The memory device is in its canonical form (the model's own form, Machine/Ops.lean). -/
def State.memoryLaw (s : State) : Prop := s.mem.wf = true

/-- The fault log holds at most 16 records, and a dropped counter above 0 is accompanied by a record (R192). -/
def State.logLaw (s : State) : Prop := s.log.length ≤ 16 ∧ (s.dropped ≠ 0#8 → s.log ≠ [])

/-- The post queue never holds more than 8 entries (R115). -/
def State.queueLaw (s : State) : Prop := s.queue.length ≤ 8

/-- A MAINT row operation of a restore (R52). -/
def MaintTask.ofRestore : MaintTask → Bool
  | .restoreImage _ => true
  | .restoreTarget _ => true
  | .loadRow _ _ _ _ => false
  | .anchorRead _ => false
  | .scanHeader _ _ _ => false
  | .wipeHeader _ _ => false
  | .anchorWrite _ _ _ => false
  | .anchorConfirm _ _ _ => false
  | .formatAnchor _ _ => false
  | .formatHeader _ _ => false
  | .slotZeroClear => false
  | .copyClear _ => false
  | .copyBody _ _ => false
  | .copyClose _ => false
  | .copyConfirm _ _ _ => false

/-- A restore is under way on MAINT. -/
def State.restoring (s : State) : Bool := (s.maint.map MaintTask.ofRestore).getD false

/-- The savepoint stack holds from 0 to 7 positions, top first not increasing, and none greater than the tail (R28);
and while a restore is under way the stack is empty or an UNDO has not yet reached its top position (R32, R54). -/
def State.stackLaw (s : State) : Prop :=
  s.stack.length ≤ 7 ∧ s.stack.Pairwise (fun a b => b ≤ a) ∧ (∀ p ∈ s.stack, p ≤ s.tail)
    ∧ (s.restoring = true →
        s.stack = [] ∨ ((s.longOp.map LongOp.kind) = some .undo ∧ s.segmentStart < s.tail))

/-- An entry is completed. -/
def Entry.completed (e : Entry) : Bool := e.mark == .completed

/-- A completed entry waits in the post queue, and so occupies the bus (R115). -/
def State.completedQueued (s : State) : Bool := s.queue.any Entry.completed

/-- The bus carries one request at a time (R110): at most one of the held request, the pending read and a completed
entry; and a completed entry is the only entry of the queue (R115). -/
def State.busLaw (s : State) : Prop :=
  (s.held.isSome = true → s.pendingRead = none ∧ s.completedQueued = false)
    ∧ (s.pendingRead.isSome = true → s.completedQueued = false)
    ∧ (s.completedQueued = true → s.queue.length = 1)

/-- The row index is kept in strictly rising order of its row numbers, so no two entries are for one row. -/
def indexRising (index : List (Nat × Nat)) : Prop := (index.map Prod.fst).Pairwise (· < ·)

/-- Every record's back-link names the highest slot below it that holds a record for its row, and is absent when
there is none (R33). -/
def chainLaw (slots : List SlotEntry) : Prop :=
  ∀ k e, slots[k]? = some e → e.backLink = newestSlot (slots.take k) e.target

/-- The slots a recovery scan has accepted so far, empty outside the scan (R79). -/
def State.scannedSlots (s : State) : List SlotEntry :=
  match s.maint with
  | some (.scanHeader _ _ accepted) => accepted
  | _ => []

/-- The row-index law (R15) and the chains (R33): one entry for each distinct target row among the occupied slots, in
rising order of the rows, naming its highest slot; and well-formed back-links, of the slots that the scan has accepted
too (R79). -/
def State.indexLaw (s : State) : Prop :=
  indexRising s.index
    ∧ (∀ row, indexGet s.index row = newestSlot s.slots row)
    ∧ chainLaw s.slots ∧ chainLaw s.scannedSlots

/-- The attempts of an operation are numbered from 1, and at most one more than its retry count is made (R151). -/
def State.portLaw (s : State) : Prop :=
  match s.port with
  | .idle => True
  | .inFlight f => 1 ≤ f.attempt ∧ f.attempt ≤ f.retries.toNat + 1
  | .aborting f => 1 ≤ f.attempt ∧ f.attempt ≤ f.retries.toNat + 1

/-- A MAINT row operation of an APPLY's copy write (R170). -/
def MaintTask.ofCopyWrite : MaintTask → Bool
  | .slotZeroClear => true
  | .copyClear _ => true
  | .copyBody _ _ => true
  | .copyClose _ => true
  | .copyConfirm _ _ _ => true
  | .loadRow _ _ _ _ => false
  | .anchorRead _ => false
  | .scanHeader _ _ _ => false
  | .restoreImage _ => false
  | .restoreTarget _ => false
  | .wipeHeader _ _ => false
  | .anchorWrite _ _ _ => false
  | .anchorConfirm _ _ _ => false
  | .formatAnchor _ _ => false
  | .formatHeader _ _ => false

/-- An APPLY has passed its checks and has not yet reached its activation. -/
def State.copyWork (s : State) : Bool := s.activationDue || (s.maint.map MaintTask.ofCopyWrite).getD false

/-- Copy A's record, when VALID, while the load reads copy B. -/
def State.loadedFirst (s : State) : Option ConfigRecord :=
  match s.maint with
  | some (.loadRow _ _ _ first) => first
  | _ => none

/-- The active configuration passes validation (R161), and with it what that rests on: a record loaded before it was
classified VALID, an APPLY past its checks executes over a staged record that passes validation, its activation
waits for nothing else on MAINT, and nothing is under way in reset. -/
def State.configLaw (s : State) : Prop :=
  (∀ c, s.active = some c → c.valid = true)
    ∧ (∀ c, s.loadedFirst = some c → c.valid = true)
    ∧ (s.copyWork = true →
        (s.longOp.map fun o => (o.kind, o.phase)) = some (.apply, .executing) ∧ s.staging.valid = true)
    ∧ (s.activationDue = true → s.maint = none)
    ∧ (s.inReset = true → s.copyWork = false ∧ s.maint = none)

/-! ## A record before every write -/

/-- A MAINT row operation of the journal's own work: its recovery, a restore, an advance, a wipe or a format. -/
def MaintTask.ofJournal : MaintTask → Bool
  | .anchorRead _ => true
  | .scanHeader _ _ _ => true
  | .restoreImage _ => true
  | .restoreTarget _ => true
  | .wipeHeader _ _ => true
  | .anchorWrite _ _ _ => true
  | .anchorConfirm _ _ _ => true
  | .formatAnchor _ _ => true
  | .formatHeader _ _ => true
  | .loadRow _ _ _ _ => false
  | .slotZeroClear => false
  | .copyClear _ => false
  | .copyBody _ _ => false
  | .copyClose _ => false
  | .copyConfirm _ _ _ => false

/-- A MAINT row operation of the start's configuration load (R164). -/
def MaintTask.ofLoad : MaintTask → Bool
  | .loadRow _ _ _ _ => true
  | .anchorRead _ => false
  | .scanHeader _ _ _ => false
  | .restoreImage _ => false
  | .restoreTarget _ => false
  | .wipeHeader _ _ => false
  | .anchorWrite _ _ _ => false
  | .anchorConfirm _ _ _ => false
  | .formatAnchor _ _ => false
  | .formatHeader _ _ => false
  | .slotZeroClear => false
  | .copyClear _ => false
  | .copyBody _ _ => false
  | .copyClose _ => false
  | .copyConfirm _ _ _ => false

/-- A journal state in which the Journal Unit executes on MAINT (R50, R76). -/
def JournalState.executing : JournalState → Bool
  | .scanning => true
  | .committing => true
  | .rollingBack => true
  | .undoing => true
  | .formatting => true
  | .absent _ => false
  | .opened => false
  | .draining => false
  | .broken _ => false

/-- The job in progress, when it is a write job of a JOURNALED region. -/
def State.journaledWriteJob (s : State) : Option Job :=
  match s.job with
  | none => none
  | some j => if !j.request.isRead && j.mode == .journaled then some j else none

/-- The Journal Unit's own work and a journaled write job exclude each other (R3, R4): the journal works on MAINT only
in an executing state, in which no journaled write job is in progress; nor is one while the configuration is
loading, or in reset, when no configuration is active. -/
def State.exclusionLaw (s : State) : Prop :=
  (s.inReset = true → s.port = .idle ∧ s.job = none ∧ s.active = none)
    ∧ ((s.maint.map MaintTask.ofLoad).getD false = true → s.active = none ∧ s.journaledWriteJob = none)
    ∧ ((s.maint.map MaintTask.ofJournal).getD false = true → s.journal.executing = true)
    ∧ (s.journal.executing = true → s.journaledWriteJob = none)

/-- The tail never exceeds N_S (R14), each occupied slot has its header's image status and sequence number beside its
entry (R22, R79), and with it what that rests on: an append runs only for a journaled write job,
in a slot of the journal, with a free slot reserved for its record and for every record the job has yet to append
(R19); only such a job needs records; and the scan has accepted exactly the slots below the one it reads (R79). -/
def State.tailLaw (s : State) : Prop :=
  s.tail ≤ s.nSlots.toNat ∧ s.slotHeaders.length = s.tail
    ∧ (∀ j, s.job = some j → ∀ r ∈ j.rows, r.needsRecord = true → s.journaledWriteJob = some j)
    ∧ (∀ j i slot sequence step, s.job = some j → j.phase = .appending i slot sequence step →
        s.journaledWriteJob = some j ∧ slot < s.nSlots.toNat
          ∧ s.tail + 1 + ((j.rows.drop (i + 1)).filter JobRow.needsRecord).length ≤ s.nSlots.toNat)
    ∧ (∀ c, s.maint = some (.anchorRead c) → 0 < s.nSlots.toNat)
    ∧ (∀ k headers accepted, s.maint = some (.scanHeader k headers accepted) →
        accepted.length = k ∧ headers.length = k ∧ k < s.nSlots.toNat)

/-- The row operations of FRONT that are in flight or waiting (R155, R156). -/
def State.frontOps (s : State) : List RowOp :=
  (match s.port with
    | .idle => []
    | .inFlight f => if f.requester = .front then [f.op] else []
    | .aborting f => if f.requester = .front then [f.op] else []) ++ s.waitFront.toList

/-- A row operation is the one that a job's phase asks for (R22, R136, R142, R143); a target write, of a row that the
job writes (R142). -/
def State.asksFor (s : State) (j : Job) (op : RowOp) : Prop :=
  match j.phase with
  | .reading i => op = .read (j.rowNumber i)
  | .appending _ slot _ step =>
    ∃ content, op = .write (if step = .imageWrite then s.imageRow slot else s.headerRow slot) content
  | .writing i => ∃ r content, j.rows[i]? = some r ∧ r.touched = true ∧ op = .write r.row content
  | .parked => False

/-- FRONT carries one row operation at a time, and it is the one that the job in progress asks for in its phase (R130,
R148); and no row of a journaled write job is a reserved row (R103), so that none is a row of the journal. -/
def State.frontLaw (s : State) : Prop :=
  s.frontOps.length ≤ 1 ∧ (∀ op ∈ s.frontOps, ∃ j, s.job = some j ∧ s.asksFor j op)
    ∧ ∀ j, s.journaledWriteJob = some j → ∀ r ∈ j.rows, s.reservedRow r.row = false

/-- The rows of a write job that have their record in the current segment by now (R18, R22): in READING those that
needed none; in APPENDING also those before the row being appended; in WRITING every row the job writes. -/
def Job.recorded (j : Job) (k : Nat) (r : JobRow) : Bool :=
  r.touched &&
    match j.phase with
    | .reading _ => !r.needsRecord
    | .appending i _ _ _ => !r.needsRecord || k < i
    | .writing _ => true
    | .parked => false

/-- No journaled row is written before its record stands (R22, R23): while a write job of a JOURNALED region is in
progress, each of its recorded rows has a record in the current segment, and in WRITING that is every row it
writes; and a write of one of its rows is in flight or waiting on FRONT only in WRITING. -/
def State.recordLaw (s : State) : Prop :=
  ∀ j, s.journaledWriteJob = some j →
    (∀ k r, j.rows[k]? = some r → j.recorded k r = true → s.needsRecord r.row = false)
      ∧ ∀ row content, RowOp.write row content ∈ s.frontOps → (∃ r ∈ j.rows, r.row = row) →
        ∃ i, j.phase = .writing i

/-- The start's recovery executes on MAINT (R76, R78): it scans, or it rolls back with the header mark that R80 has set
as its scan stopped, which is N_S. -/
def State.recoveryLaw (s : State) : Prop :=
  ∀ o, s.longOp = some o → o.origin = .start →
    o.kind = .rollback ∧ o.phase = .executing ∧ (s.maint.map MaintTask.ofJournal).getD false = true
      ∧ (s.journal = .scanning ∨ (s.journal = .rollingBack ∧ s.recoveryMark = some s.nSlots.toNat))

/-! ## Words of the statements -/

/-- The part takes requests in, and the bus is free (R110, R114). -/
def State.takesRequests (s : State) : Prop :=
  s.inReset = false
    ∧ (s.operating = .running ∨ (s.operating = .starting ∧ s.active.isSome = true))
    ∧ s.held = none ∧ s.pendingRead = none ∧ ∀ e ∈ s.queue, e.mark = .posted

/-- The drain of the current long operation has ended (R50): no entry is ahead of the boundary, and no journaled job is
in progress. -/
def State.drainEnded (s : State) (o : LongOp) : Prop :=
  s.inReset = false ∧ s.longOp = some o ∧ o.phase = .waiting ∧ (∀ e ∈ s.queue, s.ahead e = false)
    ∧ ∀ j, s.job = some j → j.mode ≠ .journaled

/-- A long operation's record as it is created at taking (R44, R45). -/
def LongOp.created (kind : OpKind) (origin : Origin) (skip : Bool) : LongOp :=
  { kind := kind, origin := origin, phase := .waiting, skip := skip, restored := 0, skipped := 0, discarded := 0,
    carried := 0 }

/-- The end event of a long operation before the CKPT latch is settled (R70, R185): the journal state is set, the
boundary mark removed, the completion record written with its overrun flag, and the operation's record removed. -/
def State.endedWith (s : State) (journal : JournalState) (c : CompletionRecord) : State :=
  { s with
    journal := journal, readHeld := false, headHeld := false, mark := none, maint := none, longOp := none
    completion := some { c with overrun := s.completion.isSome } }

/-- The state after the row operation in flight has ended, before its result reaches the requester: the port is IDLE,
and the other requester's waiting request is granted (R156). -/
def State.portFreed (s : State) : State := ({ s with port := .idle } : State).arbitrate

/-- The MAINT row operation of a task is in flight: it reads a row, which holds this. -/
def State.maintReads (s : State) (task : MaintTask) (row : Nat) (x : Row) : Prop :=
  s.maint = some task ∧ s.mem.read row = x ∧ ∃ f, s.port = .inFlight f ∧ f.requester = .maint ∧ f.op = .read row

/-- The MAINT row operation of a task is in flight: it writes a row. -/
def State.maintWrites (s : State) (task : MaintTask) (row : Nat) (content : Row) : Prop :=
  s.maint = some task ∧ ∃ f, s.port = .inFlight f ∧ f.requester = .maint ∧ f.op = .write row content

/-- The MAINT row operation of a task fails for good, with a fault kind, as a command is taken: its last attempt
answers FAIL, or its last abort is acknowledged (R151, R152). -/
def State.maintFails (s : State) (task : MaintTask) (op : RowOp) (c : Instr) (left : Residue) (kind : FaultKind) :
    Prop :=
  s.maint = some task ∧ ∃ f, f.requester = .maint ∧ f.op = op ∧ f.retries.toNat < f.attempt
    ∧ ((c = .memoryAttemptFail left ∧ s.port = .inFlight f ∧ kind = .memoryFail)
      ∨ (c = .abortAcknowledge left ∧ s.port = .aborting f ∧ kind = .memoryTimeout))

/-- The state after a write of MAINT has completed and the port is free again (R149, R156). -/
def State.wrote (s : State) (row : Nat) (content : Row) : State :=
  ({ s with mem := s.mem.write row content } : State).portFreed

/-- The state after a write of MAINT has failed for good and the port is free again (R149, R156). -/
def State.wroteInPart (s : State) (row : Nat) (content : Row) (left : Residue) : State :=
  ({ s with mem := s.mem.write row (residueRow row (s.mem.read row) content left) } : State).portFreed

/-- A step asks for a row operation on MAINT, for a task (R155). -/
def State.asksMaint (s : State) (task : MaintTask) (op : RowOp) : State :=
  ({ s with maint := some task } : State).requestPort .maint op

/-- A fault record without an address, both flags clear, as the Journal Unit and the Configuration Unit file it
(R193). -/
def unitFault (kind : FaultKind) (source : FaultSource) (row : Nat) (slot : Option Nat) (epoch : Word) : FaultRecord :=
  { kind := kind, source := source, address := none, row := some row, slot := slot, epoch := epoch, posted := false
    partialDone := false }

/-- The FRONT row operation of the job in progress is in flight: it reads a row, which holds this. -/
def State.frontReads (s : State) (j : Job) (row : Nat) (x : Row) : Prop :=
  s.job = some j ∧ s.mem.read row = x ∧ ∃ f, s.port = .inFlight f ∧ f.requester = .front ∧ f.op = .read row

/-- The FRONT row operation of the job in progress is in flight: it writes a row. -/
def State.frontWrites (s : State) (j : Job) (row : Nat) (content : Row) : Prop :=
  s.job = some j ∧ ∃ f, s.port = .inFlight f ∧ f.requester = .front ∧ f.op = .write row content

/-- The FRONT row operation of the job in progress fails for good, with a fault kind, as a command is taken: its last
attempt answers FAIL, or its last abort is acknowledged (R151, R152). -/
def State.frontFails (s : State) (j : Job) (op : RowOp) (c : Instr) (left : Residue) (kind : FaultKind) : Prop :=
  s.job = some j ∧ ∃ f, f.requester = .front ∧ f.op = op ∧ f.retries.toNat < f.attempt
    ∧ ((c = .memoryAttemptFail left ∧ s.port = .inFlight f ∧ kind = .memoryFail)
      ∨ (c = .abortAcknowledge left ∧ s.port = .aborting f ∧ kind = .memoryTimeout))

/-- A job in progress asks for a row operation on FRONT (R155). -/
def State.asksFront (s : State) (j : Job) (op : RowOp) : State :=
  ({ s with job := some j } : State).requestPort .front op

/-- A fault record of the Row Engine (R145). -/
def jobFault (kind : FaultKind) (address : Address) (row : Nat) (slot : Option Nat) (epoch : Word)
    (posted partialDone : Bool) : FaultRecord :=
  { kind := kind, source := .rowEngine, address := some address, row := some row, slot := slot, epoch := epoch
    posted := posted, partialDone := partialDone }

/-- A write job has ended (R119, R144): its entry has left the queue, answered when it is completed, and the job record
is cleared; the held write is then taken in when there is room (R115), and a FREEZE deferred for the job is decided
(R106). -/
def State.writeJobEnded (s : State) (e : Entry) (rest : List Entry) (okay : Bool) : State :=
  ({ s with
    queue := rest, headHeld := false, job := none
    frontResponse := if e.mark = .posted then s.frontResponse else some { okay := okay, beats := [] } } :
      State).acceptHeldWrite.decideIfDue

/-- The drop at power-fail quiesce of a head in space-wait, with every entry behind it (R84): one record whose slot
field is the number of entries, an empty queue, the space-wait over, and ERROR to a completed head. -/
def State.headDropped (s : State) (h : Entry) (rest : List Entry) : State :=
  { s.file
      { kind := .writesDroppedAtPowerFail, source := .startUnit, address := some h.address
        row := some (h.address.toNat / 16), slot := some (rest.length + 1), epoch := s.epochOrZero
        posted := h.mark == .posted, partialDone := false } with
    queue := [], parked := none, headHeld := false
    frontResponse := if h.mark = .posted then s.frontResponse else some { okay := false, beats := [] } }

/-- RUNNING is entered (R82); while PFW is asserted QUIESCING follows at once, which drops a head in space-wait with
every entry behind it (R81, R83, R84). -/
def State.runningEntered (s : State) : State :=
  if s.pfw then
    let quiescing : State := { s with operating := .quiescing }
    match s.queue with
    | [] => quiescing
    | h :: rest => if h.state = .spaceWait then quiescing.headDropped h rest else quiescing
  else { s with operating := .running }

/-- The end of the start in RUNNING (R81): a request pending in the CKPT latch is settled by the journal state that the
start has set, and PFW's level is taken. -/
def State.startEnded (s : State) : State := ({ s with operating := .running } : State).settleLatch.runningEntered

/-- What follows the end event of a long operation that is not the start's recovery: a request pending in the CKPT latch
is settled (R72), and an APPLY that has made a configuration active leaves UNCONFIGURED (R82, R174). -/
def State.linkEnded (s : State) : State :=
  if s.operating = .unconfigured ∧ s.active ≠ none then s.settleLatch.runningEntered else s.settleLatch

/-- The state after a fault record, if there is one, is filed. -/
def State.filed (s : State) (record : Option FaultRecord) : State :=
  match record with
  | none => s
  | some f => s.file f

/-- A fault record of the Front Port Unit about a request, without a slot, both flags clear (R82, R112, R128). -/
def requestFault (kind : FaultKind) (address : Address) (row : Option Nat) (epoch : Word) : FaultRecord :=
  { kind := kind, source := .frontPortUnit, address := some address, row := row, slot := none, epoch := epoch
    posted := false, partialDone := false }

/-- A state follows the filing of two records of one event, in one order or the other (log entry 2). -/
def State.filesBoth (s : State) (f g : FaultRecord) (t : State) : Prop :=
  t = (s.file f).file g ∨ t = (s.file g).file f

/-- The post queue has room for one more write under an acknowledgement mode (R115). -/
def roomUnder (ack : AckMode) (queue : List Entry) : Prop :=
  match ack with
  | .posted => queue.length < 8
  | .completed => queue = []

/-- The ERROR that answers a request refused as a whole: every beat of a read is zero (R111). -/
def refusedResponse : Request → FrontResponse
  | .read _ beats => { okay := false, beats := List.replicate beats 0#32 }
  | .write _ _ => { okay := false, beats := [] }

/-- Acceptance opens as the start makes a configuration active, with the record of that event when there is one (R77,
R114): t is s with the request held since before it taken in. An acceptable read is the pending read (R120); an
acceptable write joins the queue with the next acceptance number, a posted one answered OKAY, while there is room, and
stays held otherwise (R115, R117); a burst that is not acceptable is answered ERROR with ALIGNMENT (R112). -/
def State.acceptanceOpens (s : State) (ack : AckMode) (record : Option FaultRecord) (t : State) : Prop :=
  (s.held = none → t = s.filed record)
    ∧ (∀ address beats, s.held = some (.read address beats) → burstAcceptable address beats = true →
        t = { s.filed record with
          held := none, readHeld := false
          pendingRead := some { address := address, beats := beats, taken := false } })
    ∧ (∀ address beats, s.held = some (.write address beats) → burstAcceptable address beats.length = true →
        (roomUnder ack s.queue →
          t = { s.filed record with
            held := none
            queue := s.queue ++
              [{ address := address, beats := beats, number := s.nextAcceptance, mark := ack, state := .notStarted
                 timed := ack == .completed }]
            nextAcceptance := s.nextAcceptance + 1#32
            frontResponse := if ack = .posted then some { okay := true, beats := [] } else s.frontResponse })
        ∧ (¬ roomUnder ack s.queue → t = s.filed record))
    ∧ ∀ r alignment, s.held = some r → burstAcceptable r.address r.length = false →
        alignment = requestFault .alignment r.address (some (r.address.toNat / 16)) s.epochOrZero →
        match record with
        | none => t = { s.file alignment with held := none, frontResponse := some (refusedResponse r) }
        | some f =>
          ∃ u, s.filesBoth f alignment u
            ∧ t = { u with
              held := none, frontResponse := some (refusedResponse r), freeCount := s.freeCount + 1 }

/-- A command transfer of `clocked` whole bytes has left this response (R179), with data out as R176 gives. -/
def State.responded (s : State) (clocked : Nat) (status : Byte) (payload : List Byte) : State :=
  { s with
    response := .ready (status :: payload ++ [frameCrc (status :: payload)])
    linkOut := 0xC3#8 :: List.replicate (clocked - 1) 0#8 }

/-- The kind, the transfer length and the skip flag of a long command's frame (R183, R202); none for any other
command, and for a RESUME whose argument byte has no meaning. -/
def longCommandOf : Instr → Option (OpKind × Nat × Bool)
  | .save => some (.save, 2, false)
  | .release => some (.release, 2, false)
  | .undo => some (.undo, 2, false)
  | .commit => some (.commit, 2, false)
  | .rollback => some (.rollback, 2, false)
  | .format => some (.format, 2, false)
  | .apply => some (.apply, 2, false)
  | .resume skip =>
    if skip = 0x00#8 then some (.resume, 3, false) else if skip = 0x01#8 then some (.resume, 3, true) else none
  | .frontReadRequest _ _ | .frontWriteRequest _ _ | .heldWriteAccept | .holdTimerExpiry | .jobTake
  | .memoryAttemptDone _ | .memoryAttemptFail _ | .attemptTimerExpiry | .abortAcknowledge _ | .drainEnd
  | .applyActivation | .freezeDeferredDecision | .quiescedEntry | .ckptEdge | .pfwAssert | .pfwDeassert
  | .rstAssert _ | .start _ | .responseRead _ | .frameError _ _ | .unknownCommand _ | .status | .ident
  | .completion | .faultPop | .cfgRead _ _ | .cfgStage _ _ | .cfgCopy | .alertMask _ | .freeze _ => none

/-- The operating state takes a long command of this kind (R183): neither STARTING nor, but for APPLY, UNCONFIGURED. -/
def OperatingState.takesLong (o : OperatingState) (kind : OpKind) : Bool :=
  match o with
  | .starting => false
  | .unconfigured => kind == .apply
  | .running => true
  | .quiescing => true
  | .quiesced => true

/-- The journal states in which a long command of a kind is taken (R45, R168). -/
def JournalState.takes (journal : JournalState) (kind : OpKind) : Prop :=
  match kind with
  | .save => journal = .opened
  | .release => journal = .opened
  | .undo => journal = .opened
  | .commit => journal = .opened
  | .rollback => journal = .opened
  | .resume => ∃ action, journal = .broken action
  | .format =>
    journal = .opened ∨ (∃ action, journal = .broken action) ∨ journal = .absent .anchorLost
      ∨ journal = .absent .anchorMismatch
  | .apply => journal = .opened ∨ ∃ reason, journal = .absent reason

/-- The head of the post queue is in space-wait. -/
def State.headParked (s : State) : Prop := ∃ e, s.queue.head? = some e ∧ e.state = .spaceWait

end Sys2Proof.Machine
end

