-- ==== Sys2Proof/WellFormed.lean ====
section
/-! DEFINITION. When a command is one its sender can give: the operands within the ranges the spec gives the
interface. The meanings are total and do not rest on it; the statements name it where they do. -/
namespace Sys2Proof

/-- A residue is one the device may leave: a torn row reads BAD, so its damage is not 0 (R149). -/
def Residue.wellFormed : Residue → Bool
  | .former => true
  | .new => true
  | .torn _ damage => damage != 0#16

/-- The operands of a command are in range: a burst is signalled as 1 to 8 beats (R110); a residue is possible
(R149); a read transfer carries at least its own first byte (R176); and a FRAME_ERROR or UNKNOWN_COMMAND
carries a transfer that R178 answers so. -/
def Instr.wellFormed : Instr → Bool
  | .frontReadRequest _ beats => 1 ≤ beats && beats ≤ 8
  | .frontWriteRequest _ beats => 1 ≤ beats.length && beats.length ≤ 8
  | .memoryAttemptFail left => left.wellFormed
  | .abortAcknowledge left => left.wellFormed
  | .rstAssert left => left.wellFormed
  | .responseRead clocked => 1 ≤ clocked
  | .frameError bytes cut => decodeTransfer bytes cut == some (.frameError bytes cut)
  | .unknownCommand bytes => decodeTransfer bytes false == some (.unknownCommand bytes)
  | .heldWriteAccept | .holdTimerExpiry | .jobTake | .memoryAttemptDone _ | .attemptTimerExpiry | .drainEnd
  | .applyActivation | .freezeDeferredDecision | .quiescedEntry | .ckptEdge | .pfwAssert | .pfwDeassert
  | .start _ | .status | .ident | .completion | .faultPop | .cfgRead _ _ | .cfgStage _ _ | .cfgCopy
  | .alertMask _ | .freeze _ | .save | .release | .undo | .commit | .rollback | .resume _ | .format
  | .apply => true

end Sys2Proof
end

