-- ==== Sys2Proof/Certificates/Slice0/Obligations.lean ====
section
/-! DEFINITION. The statements about the RL2240 for the provers: the machine and its laws, the encodings, the tables of
the rules, and what each command does. -/
open Sys2Proof Sys2Proof.Machine

/-! ## The machine -/

/-- A step runs the command at the front of the queue on the state with the queue's rest. On an empty queue the part
idles (the model's choice, log entry 4). -/
def Obligations.StepRunsTheFrontCommand : Prop :=
  (∀ (c : Instr) (rest : List Instr) (s : State),
    step { s with pending := c :: rest } = exec c { s with pending := rest })
    ∧ (∀ s : State, s.pending = [] → step s = .next s)

/-- Every command answers a next state on every state, and leaves the commands behind it waiting. -/
def Obligations.EveryCommandAnswersNext : Prop :=
  ∀ (c : Instr) (s : State), ∃ t, exec c s = .next t ∧ t.pending = s.pending

/-- The state after reset satisfies every law that the steps keep. -/
def Obligations.ResetSatisfiesEveryLaw : Prop :=
  State.reset.memoryLaw ∧ State.reset.logLaw ∧ State.reset.queueLaw ∧ State.reset.busLaw ∧ State.reset.indexLaw
    ∧ State.reset.portLaw ∧ State.reset.configLaw ∧ State.reset.stackLaw ∧ State.reset.exclusionLaw
    ∧ State.reset.tailLaw ∧ State.reset.frontLaw ∧ State.reset.recordLaw ∧ State.reset.recoveryLaw

/-! ## Laws that every step keeps -/

/-- The memory device keeps its canonical form (the model's own form, log entry 1). Whatever command is taken, every
row but that of the row operation in flight reads as before, and a row of a read only by a command that gives the row
the device altered it to (R91, R93, R149, R159; that such a read changes the row is the model's choice, log entry
7). -/
def Obligations.OnlyTheRowInFlightChanges : Prop :=
  (∀ s t : State, s.memoryLaw → step s = .next t → t.memoryLaw)
    ∧ (∀ (c : Instr) (s t : State) (row : Nat), exec c s = .next t → t.mem.read row ≠ s.mem.read row →
    ∃ f, (s.port = .inFlight f ∨ s.port = .aborting f) ∧ f.op.row = row
      ∧ ((∃ content, f.op = .write row content) ∨ ∃ x, c = .memoryAttemptDone (some x)))

/-- The fault log never holds more than 16 records, and is not empty while its dropped counter is above 0 (R192).
Records join the fault log at its end, and leave it only by FAULT_POP or at a start (R192). A filing joins a log with
room at its end, and is otherwise dropped and counted up to 255; nothing else changes (R192). -/
def Obligations.FaultLogLawIsKept : Prop :=
  (∀ s t : State, s.logLaw → step s = .next t → t.logLaw)
    ∧ (∀ (c : Instr) (s t : State), exec c s = .next t → c ≠ .faultPop → (∀ left, c ≠ .rstAssert left) →
    s.log.IsPrefix t.log)
    ∧ (∀ (s : State) (f : FaultRecord),
    (s.log.length < 16 → s.file f = { s with log := s.log ++ [f] })
    ∧ (16 ≤ s.log.length → s.file f =
        { s with dropped := if s.dropped = 255#8 then 255#8 else s.dropped + 1#8 }))

/-- The post queue never holds more than 8 entries (R115). The bus carries one request at a time, and a completed
entry is alone in the queue (R110, R115). No row operation makes more attempts on the memory port than one more than
its retry count (R151). -/
def Obligations.PortLawsAreKept : Prop :=
  (∀ s t : State, s.queueLaw → step s = .next t → t.queueLaw)
    ∧ (∀ s t : State, s.busLaw → step s = .next t → t.busLaw)
    ∧ (∀ s t : State, s.portLaw → step s = .next t → t.portLaw)

/-- The row index names the highest slot of each row with a record, in rising order of the rows, and back-links form
chains (R15, R33). -/
def Obligations.RowIndexLawIsKept : Prop :=
  ∀ s t : State, s.indexLaw → step s = .next t → t.indexLaw

/-- The active configuration always passes validation (R161). -/
def Obligations.ActiveConfigurationStaysValid : Prop :=
  ∀ s t : State, s.configLaw → step s = .next t → t.configLaw

/-- The savepoint stack holds at most 7 positions, in order, and none greater than the tail (R28). The tail never
exceeds N_S, and an append in progress has its slot and the slots of the records still to come (R14, R19). Beside each
slot-table entry stands what its header holds more, the image status and the sequence number (R22, R79, log entry 17).
-/
def Obligations.SavepointAndTailLawsAreKept : Prop :=
  (∀ s t : State, s.stackLaw → step s = .next t → t.stackLaw)
    ∧ (∀ s t : State, s.configLaw → s.exclusionLaw → s.tailLaw → step s = .next t → t.tailLaw)

/-- The Journal Unit's own work and a journaled write job never run together (R3, R4). -/
def Obligations.JournalWorkExcludesJournaledWrites : Prop :=
  ∀ s t : State, s.configLaw → s.exclusionLaw → step s = .next t → t.exclusionLaw

/-- FRONT carries one row operation at a time, the one that the job in progress asks for in its phase, in WRITING a
write of a row that the job writes; and no row of a journaled write job is a reserved row (R103, R130, R142, R148). No
journaled row is written before a record of it stands in the current segment: in WRITING each row the job writes has
its record, and a write of a row of a journaled write job is in flight or waiting only in WRITING (R22, R23). -/
def Obligations.RecordStandsBeforeEveryJournaledWrite : Prop :=
  (∀ s t : State, s.configLaw → s.exclusionLaw → s.tailLaw → s.frontLaw → step s = .next t → t.frontLaw)
    ∧ (∀ s t : State, s.configLaw → s.stackLaw → s.exclusionLaw → s.tailLaw → s.frontLaw → s.recordLaw →
        step s = .next t → t.recordLaw)

/-- A freeze flag, once set, is cleared only by a reset, which begins a start (R104). -/
def Obligations.FreezeFlagsAreClearedOnlyByReset : Prop :=
  ∀ (s t : State) (r : Fin 16), s.freeze[r] = true → step s = .next t → t.freeze[r] = false →
    ∃ left rest, s.pending = .rstAssert left :: rest

/-- Post-queue entries keep their acceptance order: a command removes entries, and may add at most one, with the next
acceptance number, at the end (R117, R118). -/
def Obligations.AcceptanceOrderIsKept : Prop :=
  ∀ (c : Instr) (s t : State), exec c s = .next t →
    (t.queue.map Entry.number).Sublist (s.queue.map Entry.number ++ [s.nextAcceptance])

/-- The retry counter rises by one at each retry, staying at 255, and is otherwise unchanged until a start, which
makes it 0; STATUS reports it (R153). -/
def Obligations.RetryCounterCountsRetries : Prop :=
  (∀ (c : Instr) (s t : State), exec c s = .next t →
    ((∃ left f, ((c = .memoryAttemptFail left ∧ s.port = .inFlight f) ∨ (c = .abortAcknowledge left ∧ s.port = .aborting f))
        ∧ f.attempt ≤ f.retries.toNat) →
      t.retryCounter = if s.retryCounter = 255#8 then 255#8 else s.retryCounter + 1#8)
    ∧ ((∃ left, c = .rstAssert left) → t.retryCounter = 0#8)
    ∧ ((∀ left, c ≠ .rstAssert left) →
        (∀ left f, ((c = .memoryAttemptFail left ∧ s.port = .inFlight f)
            ∨ (c = .abortAcknowledge left ∧ s.port = .aborting f)) → f.retries.toNat < f.attempt) →
        t.retryCounter = s.retryCounter))
    ∧ ∀ s : State, s.statusPayload[40]? = some s.retryCounter

/-! ## Encodings -/

/-- Every link command's frame decodes to that command, with its operands (R178, R202). Every transfer that is taken
as a command of the table is that command's frame, byte for byte (R178, R202). -/
def Obligations.LinkFramesRoundTrip : Prop :=
  (∀ (c : Instr) (frame : List Byte), encodeFrame c = some frame → decodeTransfer frame false = some c)
    ∧ (∀ (bytes : List Byte) (cut : Bool) (c : Instr) (body : List Byte),
    decodeTransfer bytes cut = some c → commandBody c = some body → encodeFrame c = some bytes)

/-- The frame checks are made in the order of R178, and the first that fails decides the response; FRAME_ERROR and
UNKNOWN_COMMAND replace the response and change nothing else. -/
def Obligations.FrameChecksInOrder : Prop :=
  (∀ (code : Byte) (rest : List Byte) (cut : Bool), code ≠ 0x5A#8 →
    ((cut = true ∨ rest = []) → decodeTransfer (code :: rest) cut = some (.frameError (code :: rest) cut))
    ∧ (cut = false → rest ≠ [] → frameCrc (code :: rest) ≠ 0#8 →
        decodeTransfer (code :: rest) cut = some (.frameError (code :: rest) cut))
    ∧ (cut = false → rest ≠ [] → frameCrc (code :: rest) = 0#8 → argumentCount code = none →
        decodeTransfer (code :: rest) cut = some (.unknownCommand (code :: rest)))
    ∧ (∀ n, cut = false → rest ≠ [] → frameCrc (code :: rest) = 0#8 → argumentCount code = some n →
        (rest.length ≠ n + 1 → decodeTransfer (code :: rest) cut = some (.frameError (code :: rest) cut))
        ∧ (rest.length = n + 1 → ∃ c, decodeTransfer (code :: rest) cut = some c ∧ (commandBody c).isSome = true)))
    ∧ ∀ (s : State) (bytes : List Byte) (cut : Bool), s.inReset = false → bytes ≠ [] →
        exec (.frameError bytes cut) s = .next (s.responded bytes.length 0x04#8 [])
        ∧ exec (.unknownCommand bytes) s = .next (s.responded bytes.length 0x05#8 [])

/-- The frame CRC's procedure, its test vector, its residue and its place in a response frame (R177). -/
def Obligations.FrameCrcLeavesNoResidue : Prop :=
  frameCrc [] = 0x00#8
    ∧ (∀ (bytes : List Byte) (b : Byte), frameCrc (bytes ++ [b]) =
        ([7, 6, 5, 4, 3, 2, 1, 0] : List Nat).foldl
          (fun (reg : BitVec 8) k => if b.getLsbD k ^^ reg.msb then (reg <<< 1) ^^^ 0x07#8 else reg <<< 1)
          (frameCrc bytes))
    ∧ frameCrc [0x31#8, 0x32#8, 0x33#8, 0x34#8, 0x35#8, 0x36#8, 0x37#8, 0x38#8, 0x39#8] = 0xF4#8
    ∧ (∀ bytes : List Byte, frameCrc (bytes ++ [frameCrc bytes]) = 0x00#8)
    ∧ ∀ (status : Status) (payload : List Byte),
        (responseFrame status payload).getLast? = some (frameCrc (status.code :: payload))

/-- The check value's procedure over the row number's three bytes and the sixteen data bytes, and its test vector
(R92). -/
def Obligations.CheckValueIsTheCyclicCheck : Prop :=
  (∀ (row : BitVec 24) (data : RowData), checkValue row.toNat data =
    (([row.extractLsb' 16 8, row.extractLsb' 8 8, row.extractLsb' 0 8] ++ (List.range 16).map (rowByte data)).flatMap
        fun b => ([7, 6, 5, 4, 3, 2, 1, 0] : List Nat).map fun k => b.getLsbD k).foldl
      (fun (reg : BitVec 16) bit => if bit ^^ reg.msb then (reg <<< 1) ^^^ 0x1021#16 else reg <<< 1) 0xFFFF#16)
    ∧ (([0x31#8, 0x32#8, 0x33#8, 0x34#8, 0x35#8, 0x36#8, 0x37#8, 0x38#8, 0x39#8] : List Byte).flatMap
        fun b => ([7, 6, 5, 4, 3, 2, 1, 0] : List Nat).map fun k => b.getLsbD k).foldl
      (fun (reg : BitVec 16) bit => if bit ^^ reg.msb then (reg <<< 1) ^^^ 0x1021#16 else reg <<< 1) 0xFFFF#16 = 0x29B1#16

/-- A header row holds every field of a record: it reads back as it was written, with its unused bits 0 (R200). An
anchor row reads back as it was written, with its unused bytes 0 (R200). A configuration copy holds every field: its
sixteen rows hold their complements and read back as the record, and a valid record with the signature is classified
VALID (R162, R201). The widths of memory size, N_S and watermark are log entry 18, and a stored watermark above its 13
bits with N_S 0 is log entry 37. -/
def Obligations.StoredRowsReadBack : Prop :=
  (∀ h : Header, Header.decode h.encode = h ∧ h.encode.extractLsb' 120 2 = 0#2)
    ∧ (∀ a : Anchor, Anchor.decode a.encode = a ∧ a.encode.extractLsb' 0 24 = 0#24)
    ∧ ∀ c : ConfigRecord,
        decodeRecord ((List.range 16).map (configRowData c)) = c
        ∧ (∀ i, i < 16 → complementHolds (configRowData c i) = true)
        ∧ (c.signature = 0x3D94A07C#32 → c.valid = true →
            classifyCopy ((List.range 16).map (configRowData c)) = some c)

/-! ## Tables and tests of the rules -/

/-- A row number is looked up as RESERVED, NOT_MAPPED or the one entry that covers it, in this order (R101). The
outcome of a one-row request is its row's; of an eight-beat request it is decided in the order of R102, and a refusing
outcome names the first row that caused it. The examination of a candidate: region outcome, then mode and freeze flag
for a write, then the journal state's table for a JOURNALED region (R3, R103, R132). -/
def Obligations.RequestsMeetTheirRegions : Prop :=
  ((∀ (s : State) (row : Nat),
    ((row < 32 ∨ ∃ c, s.active = some c ∧ c.nSlots ≠ 0#16 ∧ c.base.toNat ≤ row
        ∧ row ≤ c.base.toNat + 1 + 2 * c.nSlots.toNat) → s.lookup row = .reserved)
    ∧ (¬ (row < 32 ∨ ∃ c, s.active = some c ∧ c.nSlots ≠ 0#16 ∧ c.base.toNat ≤ row
        ∧ row ≤ c.base.toNat + 1 + 2 * c.nSlots.toNat) →
      (s.memSize ≤ row → s.lookup row = .notMapped)
      ∧ ((∀ i : Fin 16, (s.regions[i]).covers row = false) → s.lookup row = .notMapped)
      ∧ (row < s.memSize → ∀ i : Fin 16, (s.regions[i]).covers row = true →
          (∀ k : Fin 16, (s.regions[k]).covers row = true → k = i) → s.lookup row = .entry i)))
    ∧ (∀ (s : State) (address : Address) (beats : Nat),
    (beats ≠ 8 →
      (s.lookup (rowOf address) = .reserved → s.outcomeOf address beats = .reserved (rowOf address))
      ∧ (s.lookup (rowOf address) = .notMapped → s.outcomeOf address beats = .notMapped (rowOf address))
      ∧ ∀ i, s.lookup (rowOf address) = .entry i → s.outcomeOf address beats = .entry i)
    ∧ (s.lookup (rowOf address) = .reserved → s.outcomeOf address 8 = .reserved (rowOf address))
    ∧ (s.lookup (rowOf address) ≠ .reserved → s.lookup (rowOf address + 1) = .reserved →
        s.outcomeOf address 8 = .reserved (rowOf address + 1))
    ∧ (s.lookup (rowOf address) = .notMapped → s.lookup (rowOf address + 1) ≠ .reserved →
        s.outcomeOf address 8 = .notMapped (rowOf address))
    ∧ (∀ i, s.lookup (rowOf address) = .entry i → s.lookup (rowOf address + 1) = .notMapped →
        s.outcomeOf address 8 = .notMapped (rowOf address + 1))
    ∧ (∀ i k, s.lookup (rowOf address) = .entry i → s.lookup (rowOf address + 1) = .entry k →
        s.outcomeOf address 8 = if i = k then .entry i else .split (rowOf address))))
    ∧ ((∀ (s : State) (r : Request) (ahead : Bool) (i : Fin 16), s.outcomeOf r.address r.length = .entry i →
    (r.isRead = false → ((s.regions[i]).mode = .readOnly ∨ s.freeze[i] = true) →
      s.classify r ahead = .refuse .writeProtected (rowOf r.address))
    ∧ ((r.isRead = true ∨ ((s.regions[i]).mode ≠ .readOnly ∧ s.freeze[i] = false)) →
        ((s.regions[i]).mode ≠ .journaled → s.classify r ahead = .proceed i)
        ∧ ((s.regions[i]).mode = .journaled →
            s.classify r ahead =
              match s.journal with
              | .opened => .proceed i
              | .draining => if r.isRead || ahead then .proceed i else .hold
              | .committing => if r.isRead then .proceed i else .hold
              | .undoing | .rollingBack | .scanning | .formatting => .hold
              | .broken _ | .absent _ => .refuse .journalUnavailable (rowOf r.address))))
    ∧ (∀ (s : State) (r : Request) (ahead : Bool) (row : Nat),
        (s.outcomeOf r.address r.length = .reserved row → s.classify r ahead = .refuse .reservedArea row)
        ∧ (s.outcomeOf r.address r.length = .notMapped row → s.classify r ahead = .refuse .notMapped row)
        ∧ (s.outcomeOf r.address r.length = .split row → s.classify r ahead = .refuse .regionSplit row)))

/-- The segment rule: a row needs a record when the index has no entry for it or names a slot below the segment start;
an append covers its own row and changes no other row's answer (R18, R29). The space request: granted exactly when
tail + k is at most N_S and k sequence numbers remain; refused under REFUSE with JOURNAL_FULL, and parked under HOLD:
the head becomes SPACE_WAIT, the job record is cleared, and the parked job keeps none of its reads. A FREEZE deferred
for the job is then decided, and a drain or a quiesce under way meets the waiting head; without them nothing else
changes (R19, R20, R106, R137, R138). Of a head in space-wait ahead of the boundary, the drain of a COMMIT carries it
with every entry ahead, that of a ROLLBACK or of an UNDO with a savepoint discards it, and that of a SAVE, RELEASE,
APPLY or FORMAT, or of an UNDO without a savepoint, ends early, REFUSED with QUEUE_HELD or NO_SAVEPOINT (R47, R48, R49,
R126, R127). In QUIESCING the head is dropped with every entry behind it (R84), before or after what the drain does: the
order is a free choice (R51, log entry 2); after an early end whose CKPT latch was PENDING the COMMIT taken then carries
the head first (log entry 35). The posted flag is log entry 15; the held request taken in with the discard, log entry
10. -/
def Obligations.SegmentAndSpaceRules : Prop :=
  (∀ (s : State) (row : Nat),
    (s.needsRecord row = true ↔
      (indexGet s.index row = none ∨ ∃ k, indexGet s.index row = some k ∧ k < (s.stack.head?).getD 0))
    ∧ (∀ other side header, other ≠ row → (s.addRecord other side header).needsRecord row = s.needsRecord row)
    ∧ (s.stackLaw → ∀ side header, (s.addRecord row side header).needsRecord row = false))
    ∧ (∀ (s : State) (k : Nat), 1 ≤ k →
    (s.spaceGranted k = true ↔
      s.slots.length + k ≤ s.nSlots.toNat ∧ s.exhausted = false ∧ s.nextSequence.toNat ≤ 4294967295 - (k - 1)
        ∧ k ≤ 4294967296))
    ∧ (∀ (s : State) (j : Job) (i : Nat) (c : ConfigRecord), s.active = some c →
        nextRow JobRow.needsRecord j.rows 0 = some i →
        (s.spaceGranted (j.rows.filter JobRow.needsRecord).length = true → s.requestSpace j = s.startAppend j i)
        ∧ (s.spaceGranted (j.rows.filter JobRow.needsRecord).length = false → c.policy = .refuse →
            s.requestSpace j = s.refuseWriteJob j .journalFull (j.rowNumber i) none false)
        ∧ (s.spaceGranted (j.rows.filter JobRow.needsRecord).length = false → c.policy = .hold →
            ∀ h rest, s.queue = h :: rest → ∀ t : State,
              t = { s with
                queue := { h with state := .spaceWait } :: rest
                job := none
                parked := some
                  { j with
                    phase := .parked, rows := j.rows.map fun (r : JobRow) => { r with result := none } } } →
              s.requestSpace j = t.decideIfDue.spaceWaitEntered
              ∧ (s.deferredFreeze = none → s.longOp = none → s.operating ≠ .quiescing → s.requestSpace j = t)))
    ∧ (∀ (s : State) (h : Entry) (rest : List Entry), s.queue = h :: rest → h.state = .spaceWait →
        (s.longOp = none ∨ s.ahead h = false) →
        (s.operating ≠ .quiescing → s.spaceWaitEntered = s)
        ∧ (s.operating = .quiescing → s.spaceWaitEntered = s.headDropped h rest))
    ∧ ∀ (s u t : State) (o : LongOp) (h : Entry) (rest : List Entry), s.queue = h :: rest → h.state = .spaceWait →
        (∀ e ∈ rest, e.state ≠ .spaceWait) → s.longOp = some o → o.phase = .waiting → o.origin ≠ .start →
        s.journal = .draining → s.ahead h = true → s.operating ≠ .unconfigured →
        u = (if s.operating = .quiescing then { s with freeCount := s.freeCount + 1 } else s) →
        ((o.kind = .commit ∧ t =
            { u with
              mark := some (h.number - 1#32), queue := { h with state := .notStarted } :: rest, parked := none
              headHeld := false, longOp := some { o with carried := ((h :: rest).filter s.ahead).length } })
          ∨ ((o.kind = .rollback ∨ (o.kind = .undo ∧ s.stack ≠ [])) ∧ t =
            ({ u with
              queue := rest, parked := none, headHeld := false
              longOp := some { o with discarded := o.discarded + 1 }
              frontResponse := if h.mark = .posted then s.frontResponse else some { okay := true, beats := [] } } :
                State).acceptHeldWrite)
          ∨ ((o.kind = .save ∨ o.kind = .release ∨ o.kind = .apply ∨ o.kind = .format) ∧ t =
            (u.endedWith .opened (o.record .refused (some .queueHeld) none s.epochOrZero)).settleLatch)
          ∨ (o.kind = .undo ∧ s.stack = [] ∧ t =
            (u.endedWith .opened (o.record .refused (some .noSavepoint) none s.epochOrZero)).settleLatch)) →
        (s.operating ≠ .quiescing → s.spaceWaitEntered = t)
        ∧ (s.operating = .quiescing → ¬ t.headParked →
            s.spaceWaitEntered = u.headDropped h rest ∨ s.spaceWaitEntered = t)
        ∧ (s.operating = .quiescing → t.headParked →
            s.spaceWaitEntered = u.headDropped h rest ∨ s.spaceWaitEntered = t.headDropped h rest)

/-- The bytes of a burst: which rows it covers, those that hold one of its bytes and no other, which byte and enable
fall on each data byte of a row, the class of a row, the merge, and the beats of a read; no byte outside the burst is
enabled (R94, R111, R134, R141). The spelling of a beat's bytes is log entry 8. -/
def Obligations.BurstsCoverTheirBytes : Prop :=
  (∀ (address : Address) (beats : Nat), burstAcceptable address beats = true →
    (∀ k, k < 4 * beats → (address.toNat + k) / 16 ∈ rowsOf address beats)
    ∧ ∀ row ∈ rowsOf address beats, ∃ k, k < 4 * beats ∧ (address.toNat + k) / 16 = row)
    ∧ (∀ (address : Address) (beats : List Beat) (row k : Nat), k < 16 →
        rowByte (rowBytes address beats row) k = (requestByte address beats (16 * row + k)).1
        ∧ (rowEnables address beats row).getLsbD k = (requestByte address beats (16 * row + k)).2)
    ∧ (∀ (address : Address) (beats : List Beat) (i k : Nat) (b : Beat), beats[i]? = some b → k < 4 →
        requestByte address beats (address.toNat + 4 * i + k) = (beatByte b.data k, b.enable.getLsbD k))
    ∧ (∀ (address : Address) (beats : List Beat) (n : Nat),
        (n < address.toNat ∨ address.toNat + 4 * beats.length ≤ n) → (requestByte address beats n).2 = false)
    ∧ (∀ enables : BitVec 16,
        (classOf enables = .full ↔ ∀ k, k < 16 → enables.getLsbD k = true)
        ∧ (classOf enables = .untouched ↔ ∀ k, k < 16 → enables.getLsbD k = false))
    ∧ (∀ (old new : RowData) (enables : BitVec 16) (k : Nat), k < 16 →
        rowByte (mergeBytes old new enables) k = if enables.getLsbD k then rowByte new k else rowByte old k)
    ∧ (∀ (address : Address) (beats : Nat) (delivered : Nat → Option RowData) (i k : Nat), i < beats → k < 4 →
        ((readBeats address beats delivered)[i]?).map (fun w => beatByte w k) =
          some (match delivered ((address.toNat + 4 * i + k) / 16) with
            | some d => rowByte d ((address.toNat + 4 * i + k) % 16)
            | none => 0x00#8))

/-- The ALERT line is asserted exactly while the part is out of reset and some raw condition holds whose mask bit is
clear (R197), and the six raw conditions hold as R195 gives. ALERT_MASK is refused with INVALID_ARGUMENT for a high
bit, then with STATE before the load ends; otherwise its six low bits are the alert mask at once (R182). -/
def Obligations.AlertFollowsMaskAndConditions : Prop :=
  ((∀ s : State, s.alertAsserted = true ↔
    s.inReset = false ∧ ∃ k, k < 6 ∧ s.rawConditions.getLsbD k = true ∧ s.alertMask.getLsbD k = false)
    ∧ ∀ s : State,
      (s.rawConditions.getLsbD 0 = true ↔ s.log ≠ [])
      ∧ (s.rawConditions.getLsbD 1 = true ↔ s.completion ≠ none)
      ∧ (s.rawConditions.getLsbD 2 = true ↔
          ∃ c, s.active = some c ∧ c.watermark.toNat ≤ s.slots.length ∧ s.journal ≠ .scanning
            ∧ ∀ reason, s.journal ≠ .absent reason)
      ∧ (s.rawConditions.getLsbD 3 = true ↔ s.parked ≠ none)
      ∧ (s.rawConditions.getLsbD 4 = true ↔
          (∃ action, s.journal = .broken action) ∨ s.journal = .absent .anchorLost
            ∨ s.journal = .absent .anchorMismatch)
      ∧ (s.rawConditions.getLsbD 5 = true ↔ s.configDegraded = true))
    ∧ (∀ (s : State) (mask : Byte), s.inReset = false →
    (64 ≤ mask.toNat → exec (.alertMask mask) s = .next (s.responded 3 0x03#8 [0x05#8]))
    ∧ (mask.toNat < 64 → s.operating = .starting → s.active = none →
        exec (.alertMask mask) s = .next (s.responded 3 0x03#8 [0x01#8]))
    ∧ (mask.toNat < 64 → (s.operating ≠ .starting ∨ s.active ≠ none) →
        exec (.alertMask mask) s = .next ({ s with alertMask := mask.setWidth 6 }.responded 3 0x00#8 [])))

/-- The CKPT latch as it is settled at every end of an operation and of the start in RUNNING: a CLEAR latch changes
nothing; a PENDING one becomes CLEAR and starts a COMMIT of origin LINE in OPEN, or is dropped with CKPT_DROPPED (R72,
R189, R190). The COMMIT carries a head in space-wait (R48), in QUIESCING too, where R51 would let the drop come first
(the model's choice, log entry 35). -/
def Obligations.PendingCheckpointIsSettled : Prop :=
  ∀ s : State,
    (s.ckptLatch = false → s.settleLatch = s)
    ∧ (s.ckptLatch = true → s.journal = .opened → ¬ s.headParked →
        s.settleLatch =
          { s with
            ckptLatch := false, journal := .draining, readHeld := false, headHeld := false
            longOp := some (LongOp.created .commit .line false), mark := some (s.nextAcceptance - 1#32) })
    ∧ (∀ h rest, s.ckptLatch = true → s.journal = .opened → s.queue = h :: rest → h.state = .spaceWait →
        (∀ e ∈ s.queue, 1 ≤ (s.nextAcceptance - e.number).toNat) →
        s.settleLatch =
          { s with
            ckptLatch := false, journal := .draining, readHeld := false, headHeld := false, parked := none
            longOp := some { LongOp.created .commit .line false with carried := s.queue.length }
            queue := { h with state := .notStarted } :: rest, mark := some (h.number - 1#32) })
    ∧ (s.ckptLatch = true → s.journal ≠ .opened →
        s.settleLatch =
          { s with ckptLatch := false }.file
            { kind := .ckptDropped, source := .controlLinkUnit, address := none, row := none, slot := none
              epoch := s.epochOrZero, posted := false, partialDone := false })

/-- The arbiter: a request at an IDLE port for which the other requester does not wait is granted at once, a request
at a busy port waits, and when the port becomes IDLE the requester not served last goes first. A grant fixes the
timings in force (R154, R156). -/
def Obligations.ArbiterServesInTurn : Prop :=
  (∀ (s : State) (r : Requester) (op : RowOp), s.port = .idle → s.waiting r.other = none →
    s.requestPort r op =
      { s with
        port := .inFlight
          { requester := r, op := op, attempt := 1, timeout := s.timeoutInForce, retries := s.retriesInForce,
            last := none }
        lastServed := r })
    ∧ (∀ (s : State) (op : RowOp), s.port ≠ .idle →
        s.requestPort .front op = { s with waitFront := some op }
        ∧ s.requestPort .maint op = { s with waitMaint := some op })
    ∧ (∀ s : State, s.waitFront = none → s.waitMaint = none → s.portFreed = { s with port := .idle })
    ∧ (∀ (s : State) (op : RowOp), s.waitFront = some op → (s.waitMaint = none ∨ s.lastServed = .maint) →
        s.portFreed =
          { s with
            waitFront := none, lastServed := .front
            port := .inFlight
              { requester := .front, op := op, attempt := 1, timeout := s.timeoutInForce,
                retries := s.retriesInForce, last := none } })
    ∧ (∀ (s : State) (op : RowOp), s.waitMaint = some op → (s.waitFront = none ∨ s.lastServed = .front) →
        s.portFreed =
          { s with
            waitMaint := none, lastServed := .maint
            port := .inFlight
              { requester := .maint, op := op, attempt := 1, timeout := s.timeoutInForce,
                retries := s.retriesInForce, last := none } })
    ∧ (∀ s : State, s.active = none → s.timeoutInForce = 64#8 ∧ s.retriesInForce = 3#2)
    ∧ ∀ (s : State) (c : ConfigRecord), s.active = some c →
        s.timeoutInForce = c.timeout ∧ s.retriesInForce = c.retries

/-! ## The front port -/

/-- FRONT_READ_REQUEST: an acceptable read that is taken in becomes the pending read, and nothing else changes but the
bus (R114, R120). FRONT_WRITE_REQUEST: an acceptable write that is taken in joins the queue under the next acceptance
number when there is room, answered OKAY at once in POSTED mode and not yet in COMPLETED mode; without room it is the
held request (R115, R117). HELD_WRITE_ACCEPT: a held write joins the queue once there is room and acceptance is open
(R115); that it is also taken without this command is log entry 10, and that it is taken by it where a change of mode
made the room, log entry 38. -/
def Obligations.AcceptableRequestsAreTakenIn : Prop :=
  (∀ (s : State) (address : Address) (beats : Nat), s.takesRequests → burstAcceptable address beats = true →
    exec (.frontReadRequest address beats) s =
      .next { s with
        pendingRead := some { address := address, beats := beats, taken := false }
        readHeld := false, frontResponse := none })
    ∧ (∀ (s : State) (address : Address) (beats : List Beat) (c : ConfigRecord), s.takesRequests → s.active = some c →
    burstAcceptable address beats.length = true →
    (c.ack = .posted → s.queue.length < 8 →
      exec (.frontWriteRequest address beats) s =
        .next { s with
          queue := s.queue ++ [{ address := address, beats := beats, number := s.nextAcceptance, mark := .posted,
                                 state := .notStarted, timed := false }]
          nextAcceptance := s.nextAcceptance + 1#32
          frontResponse := some { okay := true, beats := [] } })
    ∧ (c.ack = .completed → s.queue = [] →
        exec (.frontWriteRequest address beats) s =
          .next { s with
            queue := [{ address := address, beats := beats, number := s.nextAcceptance, mark := .completed,
                        state := .notStarted, timed := true }]
            nextAcceptance := s.nextAcceptance + 1#32
            frontResponse := none })
    ∧ ((c.ack = .posted ∧ 8 ≤ s.queue.length) ∨ (c.ack = .completed ∧ s.queue ≠ []) →
        exec (.frontWriteRequest address beats) s =
          .next { s with held := some (.write address beats), frontResponse := none }))
    ∧ (∀ (s : State) (address : Address) (beats : List Beat) (c : ConfigRecord), s.inReset = false →
    (s.operating = .running ∨ s.operating = .starting) → s.active = some c →
    s.held = some (.write address beats) →
    (c.ack = .posted → s.queue.length < 8 →
      exec .heldWriteAccept s =
        .next { s with
          held := none
          queue := s.queue ++ [{ address := address, beats := beats, number := s.nextAcceptance, mark := .posted,
                                 state := .notStarted, timed := false }]
          nextAcceptance := s.nextAcceptance + 1#32
          frontResponse := some { okay := true, beats := [] } })
    ∧ (c.ack = .completed → s.queue = [] →
        exec .heldWriteAccept s =
          .next { s with
            held := none
            queue := [{ address := address, beats := beats, number := s.nextAcceptance, mark := .completed,
                        state := .notStarted, timed := true }]
            nextAcceptance := s.nextAcceptance + 1#32 }))

/-- A request taken in whose burst is not acceptable is answered ERROR at once and files ALIGNMENT, whatever room the
queue has: at its arrival, and for a held request when PFW is deasserted (R112, R114). A request that arrives while
acceptance is closed is held in QUIESCING, in QUIESCED and before the load ends, is answered ERROR with NOT_READY in
UNCONFIGURED, and leaves no trace in reset (R74, R82, R83, R114). That a NOT_READY record has no row and no slot is log
entry 16. -/
def Obligations.RequestsAreRefusedOrHeld : Prop :=
  ((∀ (address : Address) (beats : Nat), burstAcceptable address beats = true ↔
    (beats = 1 ∨ beats = 2 ∨ beats = 4 ∨ beats = 8) ∧ address.toNat % (4 * beats) = 0)
    ∧ (∀ (s : State) (address : Address) (beats : Nat), s.takesRequests → burstAcceptable address beats = false →
        exec (.frontReadRequest address beats) s =
          .next { s.file
              { kind := .alignment, source := .frontPortUnit, address := some address
                row := some (address.toNat / 16), slot := none, epoch := s.epochOrZero, posted := false
                partialDone := false } with
            frontResponse := some { okay := false, beats := List.replicate beats 0#32 } })
    ∧ (∀ (s : State) (address : Address) (beats : List Beat), s.takesRequests →
        burstAcceptable address beats.length = false →
        exec (.frontWriteRequest address beats) s =
          .next { s.file
              { kind := .alignment, source := .frontPortUnit, address := some address
                row := some (address.toNat / 16), slot := none, epoch := s.epochOrZero, posted := false
                partialDone := false } with
            frontResponse := some { okay := false, beats := [] } })
    ∧ ∀ (s : State) (r : Request), s.inReset = false →
        (s.operating = .quiescing ∨ s.operating = .quiesced) → s.held = some r →
        burstAcceptable r.address r.length = false →
        exec .pfwDeassert s =
          .next { s.file
              { kind := .alignment, source := .frontPortUnit, address := some r.address
                row := some (r.address.toNat / 16), slot := none, epoch := s.epochOrZero, posted := false
                partialDone := false } with
            pfw := false, operating := .running, held := none
            frontResponse := some { okay := false, beats := List.replicate (if r.isRead then r.length else 0) 0#32 } })
    ∧ (∀ (s : State) (r : Request) (c : Instr),
    (c = match r with
      | .read address beats => Instr.frontReadRequest address beats
      | .write address beats => Instr.frontWriteRequest address beats) →
    (s.inReset = true → exec c s = .next s)
    ∧ (s.inReset = false → s.held = none → s.pendingRead = none → (∀ e ∈ s.queue, e.mark = .posted) →
        ((s.operating = .quiescing ∨ s.operating = .quiesced ∨ (s.operating = .starting ∧ s.active = none)) →
          exec c s = .next { s with held := some r, frontResponse := none })
        ∧ (s.operating = .unconfigured →
            exec c s =
              .next { s.file
                  { kind := .notReady, source := .frontPortUnit, address := some r.address, row := none, slot := none
                    epoch := 0#32, posted := false, partialDone := false } with
                frontResponse :=
                  some { okay := false, beats := List.replicate (if r.isRead then r.length else 0) 0#32 } })))

/-- HOLD_TIMER_EXPIRY: the one timed request, held, pending or completed, is answered ERROR, leaves, and files
HOLD_EXPIRED (R122, R123). The expiry is a command: log entry 9. -/
def Obligations.HoldLimitAnswersTheTimedRequest : Prop :=
  ∀ (s : State) (c : ConfigRecord), s.inReset = false → s.active = some c → c.holdLimit ≠ 0#16 →
    (∀ r, s.held = some r →
      exec .holdTimerExpiry s =
        .next { s.file
            { kind := .holdExpired, source := .frontPortUnit, address := some r.address
              row := some (r.address.toNat / 16), slot := none, epoch := s.epochOrZero, posted := false
              partialDone := false } with
          held := none
          frontResponse := some { okay := false, beats := List.replicate (if r.isRead then r.length else 0) 0#32 } })
    ∧ (∀ address beats, s.held = none → s.pendingRead = some { address := address, beats := beats, taken := false } →
        exec .holdTimerExpiry s =
          .next { s.file
              { kind := .holdExpired, source := .frontPortUnit, address := some address
                row := some (address.toNat / 16), slot := none, epoch := s.epochOrZero, posted := false
                partialDone := false } with
            pendingRead := none, readHeld := false
            frontResponse := some { okay := false, beats := List.replicate beats 0#32 } })
    ∧ (∀ e, s.held = none → s.pendingRead = none → s.queue = [e] → e.mark = .completed → e.timed = true →
        exec .holdTimerExpiry s =
          .next { s.file
              { kind := .holdExpired, source := .frontPortUnit, address := some e.address
                row := some (e.address.toNat / 16), slot := none, epoch := s.epochOrZero, posted := false
                partialDone := false } with
            queue := [], headHeld := false, frontResponse := some { okay := false, beats := [] } })

/-! ## The Row Engine -/

/-- JOB_TAKE of an offered read that may proceed: the pending read is taken, which stops its hold timer, and its first
row is read on FRONT (R120, R131, R132, R143). JOB_TAKE of a head that writes one whole row of an unfrozen region: the
entry is TAKEN and its timer stops; the target write is issued at once when no record is needed, and otherwise the row
is read first, for its record's image (R117, R132, R134, R135, R142). JOB_TAKE of any head that may proceed, while no
read is offered: each row has its class from its enables, needs a record by the segment rule and a read for a merge or
an image; the first row to be read is read, or, with none to read, the first row to be written is written, and a job
without an enabled byte ends with success (R131, R134, R135, R136, R137, R142). JOB_TAKE as an explicit step is log
entry 11; what the end of a job takes up in the same step, log entry 10. -/
def Obligations.JobsAreTaken : Prop :=
  (∀ (s : State) (address : Address) (beats : Nat) (i : Fin 16), s.inReset = false → s.job = none →
    s.activationDue = false → s.pendingRead = some { address := address, beats := beats, taken := false } →
    s.readHeld = false →
    (∀ e ∈ s.queue, ∀ row ∈ rowsOf address beats, row ∉ rowsOf e.address e.beats.length) →
    s.classify (.read address beats) false = .proceed i →
    exec .jobTake s =
      .next (({ s with
        pendingRead := some { address := address, beats := beats, taken := true }
        job := some
          { source := .pendingRead, request := .read address beats, mark := none, region := i
            mode := (s.regions[i]).mode, frozen := s.freeze[i]
            rows := (rowsOf address beats).map fun row =>
              { row := row, data := 0#128, enables := 0#16, cls := .untouched, needsRead := true,
                needsRecord := false, result := none }
            phase := .reading 0 } } : State).requestPort .front (.read (address.toNat / 16))))
    ∧ (∀ (s : State) (e : Entry) (rest : List Entry) (i : Fin 16) (record : Bool), s.inReset = false → s.job = none →
    s.activationDue = false → s.pendingRead = none → s.queue = e :: rest → e.state = .notStarted →
    s.headHeld = false → e.beats.length = 4 → burstAcceptable e.address 4 = true →
    (∀ b ∈ e.beats, b.enable = 0xF#4) → s.freeze[i] = false →
    s.classify (.write e.address e.beats) (s.ahead e) = .proceed i →
    record = ((s.regions[i]).mode == .journaled && s.needsRecord (rowOf e.address)) →
    exec .jobTake s =
      .next (({ s with
        queue := { e with state := .taken, timed := false } :: rest
        job := some
          { source := .queueHead e.number, request := .write e.address e.beats, mark := some e.mark, region := i
            mode := (s.regions[i]).mode, frozen := false
            rows := [{ row := rowOf e.address, data := rowBytes e.address e.beats (rowOf e.address),
                       enables := 0xFFFF#16, cls := .full, needsRead := record, needsRecord := record,
                       result := none }]
            phase := if record then .reading 0 else .writing 0 } } : State).requestPort .front
          (if record then .read (rowOf e.address)
            else .write (rowOf e.address)
              (freshRow (rowOf e.address) (rowBytes e.address e.beats (rowOf e.address))))))
    ∧ (∀ (s t : State) (e : Entry) (rest : List Entry) (i : Fin 16) (record : Nat → Bool) (rows : List JobRow)
        (j : Job), s.inReset = false → s.job = none → s.activationDue = false →
        (∀ p, s.pendingRead = some p → p.taken = true ∨ s.readHeld = true
          ∨ ∃ x ∈ s.queue, ∃ row ∈ rowsOf p.address p.beats, row ∈ rowsOf x.address x.beats.length) →
        s.queue = e :: rest → e.state = .notStarted → s.headHeld = false →
        s.classify (.write e.address e.beats) (s.ahead e) = .proceed i →
        (∀ row, record row = (classOf (rowEnables e.address e.beats row) != .untouched
          && (s.regions[i]).mode == .journaled && s.needsRecord row)) →
        rows = ((rowsOf e.address e.beats.length).map fun row =>
          { row := row, data := rowBytes e.address e.beats row, enables := rowEnables e.address e.beats row
            cls := classOf (rowEnables e.address e.beats row)
            needsRead := classOf (rowEnables e.address e.beats row) == .part || record row
            needsRecord := record row, result := none }) →
        t = { s with queue := { e with state := .taken, timed := false } :: rest } →
        j = { source := .queueHead e.number, request := .write e.address e.beats, mark := some e.mark, region := i
              mode := (s.regions[i]).mode, frozen := s.freeze[i], rows := rows, phase := .reading 0 } →
        (∀ k r, nextRow JobRow.needsRead rows 0 = some k → rows[k]? = some r →
          exec .jobTake s = .next (t.asksFront { j with phase := .reading k } (.read r.row)))
        ∧ (∀ k r, nextRow JobRow.needsRead rows 0 = none → nextRow JobRow.touched rows 0 = some k →
            rows[k]? = some r →
            exec .jobTake s =
              .next (t.asksFront { j with phase := .writing k } (.write r.row (freshRow r.row r.data))))
        ∧ (nextRow JobRow.touched rows 0 = none → exec .jobTake s = .next (t.writeJobEnded e rest true)))

/-- JOB_TAKE of an eligible pending read that is held marks it held, and in the same step the head is examined as if
the read had been marked before; with no head offered nothing else changes (R120, R121, R131, R132). JOB_TAKE of a head
that is held, with no read offered, marks it held and changes nothing else (R131, R132). JOB_TAKE of a candidate that
its classification refuses: its record is filed, it leaves, and it is answered as R103 and R144 give; no row operation
is issued for it. JOB_TAKE as an explicit step is log entry 11; the held request and the deferred FREEZE taken up in
the same step, log entry 10. -/
def Obligations.CandidatesAreHeldOrRefused : Prop :=
  (∀ (s : State) (address : Address) (beats : Nat), s.inReset = false → s.job = none → s.activationDue = false →
    s.pendingRead = some { address := address, beats := beats, taken := false } → s.readHeld = false →
    (∀ e ∈ s.queue, ∀ row ∈ rowsOf address beats, row ∉ rowsOf e.address e.beats.length) →
    s.classify (.read address beats) false = .hold →
    exec .jobTake s = exec .jobTake { s with readHeld := true }
    ∧ ((∀ e, s.queue.head? = some e → e.state ≠ .notStarted ∨ s.headHeld = true) →
        exec .jobTake s = .next { s with readHeld := true })
    ∧ (∀ e, s.queue.head? = some e → e.state = .notStarted → s.headHeld = false →
        s.classify (.write e.address e.beats) (s.ahead e) = .hold →
        exec .jobTake s = .next { s with readHeld := true, headHeld := true }))
    ∧ (∀ (s : State) (e : Entry) (rest : List Entry), s.inReset = false → s.job = none → s.activationDue = false →
    (∀ p, s.pendingRead = some p → p.taken = true ∨ s.readHeld = true
      ∨ ∃ x ∈ s.queue, ∃ row ∈ rowsOf p.address p.beats, row ∈ rowsOf x.address x.beats.length) →
    s.queue = e :: rest → e.state = .notStarted → s.headHeld = false →
    s.classify (.write e.address e.beats) (s.ahead e) = .hold →
    exec .jobTake s = .next { s with headHeld := true })
    ∧ (∀ (s : State) (kind : FaultKind) (row : Nat), s.inReset = false → s.job = none → s.activationDue = false →
    (∀ e rest, (∀ p, s.pendingRead = some p → p.taken = true ∨ s.readHeld = true
        ∨ ∃ x ∈ s.queue, ∃ r ∈ rowsOf p.address p.beats, r ∈ rowsOf x.address x.beats.length) →
      s.queue = e :: rest → e.state = .notStarted → s.headHeld = false →
      s.classify (.write e.address e.beats) (s.ahead e) = .refuse kind row →
      exec .jobTake s =
        .next ({ s.file
            { kind := kind, source := .rowEngine, address := some e.address, row := some row, slot := none
              epoch := s.epochOrZero, posted := e.mark == AckMode.posted, partialDone := false } with
          queue := rest
          frontResponse := if e.mark = AckMode.posted then s.frontResponse
            else some { okay := false, beats := [] } }).acceptHeldWrite.decideIfDue)
    ∧ (∀ address beats, s.pendingRead = some { address := address, beats := beats, taken := false } →
        s.readHeld = false →
        (∀ e ∈ s.queue, ∀ r ∈ rowsOf address beats, r ∉ rowsOf e.address e.beats.length) →
        s.classify (.read address beats) false = .refuse kind row →
        exec .jobTake s =
          .next { s.file
              { kind := kind, source := .rowEngine, address := some address, row := some row, slot := none
                epoch := s.epochOrZero, posted := false, partialDone := false } with
            pendingRead := none
            frontResponse := some { okay := false, beats := List.replicate beats 0#32 } }))

/-- MEMORY_ATTEMPT_DONE on the one row of a read job: a GOOD row is delivered with OKAY, and a BAD one files ROW_CHECK
and is answered ERROR with zeros (R111, R143). In a read job of one row or two, each row in order is read to its end:
a GOOD row is kept, a BAD one files ROW_CHECK and a failed read its memory fault; then the next row is read, or the
read is answered, OKAY when every row was delivered and otherwise ERROR, the beats of each row that was not delivered
as zeros (R111, R143, R144, R145). -/
def Obligations.ReadIsAnsweredFromItsRow : Prop :=
  (∀ (s : State) (f : Flight) (j : Job) (address : Address) (beats : Nat) (r : JobRow) (x : Row),
    s.port = .inFlight f → f.requester = .front → f.op = .read r.row → s.job = some j →
    j.request = .read address beats → j.rows = [r] → r.needsRead = true → j.phase = .reading 0 →
    s.mem.read r.row = x →
    (rowGood r.row x = true →
      exec (.memoryAttemptDone none) s =
        .next { s.portFreed with
          pendingRead := none, readHeld := false, job := none
          frontResponse := some
            { okay := true, beats := readBeats address beats fun row => if row = r.row then some x.data else none } })
    ∧ (rowGood r.row x = false →
        exec (.memoryAttemptDone none) s =
          .next { s.portFreed.file
              { kind := .rowCheck, source := .rowEngine, address := some address, row := some r.row, slot := none
                epoch := s.epochOrZero, posted := false, partialDone := false } with
            pendingRead := none, readHeld := false, job := none
            frontResponse := some { okay := false, beats := readBeats address beats fun _ => none } }))
    ∧ ∀ (s t : State) (j : Job) (address : Address) (beats i : Nat) (r : JobRow) (c : Instr) (read : RowRead)
        (rows : List JobRow), j.request = .read address beats → j.rows.map JobRow.row = rowsOf address beats →
        (∀ p ∈ j.rows, p.needsRead = true) → j.phase = .reading i → j.rows[i]? = some r →
        ((∃ x, s.frontReads j r.row x ∧ c = .memoryAttemptDone none
            ∧ ((rowGood r.row x = true ∧ read = .good x ∧ t = s.portFreed)
              ∨ (rowGood r.row x = false ∧ read = .bad x
                ∧ t = s.portFreed.file (jobFault .rowCheck address r.row none s.epochOrZero false false))))
          ∨ ∃ left kind, s.frontFails j (.read r.row) c left kind ∧ read = .failed
              ∧ t = s.portFreed.file (jobFault kind address r.row none s.epochOrZero false false)) →
        rows = j.rows.set i { r with result := some read } →
        (∀ q, j.rows[i + 1]? = some q →
          exec c s = .next (t.asksFront { j with rows := rows, phase := .reading (i + 1) } (.read q.row)))
        ∧ (j.rows.length = i + 1 → ∃ delivered : Nat → Option RowData,
            (∀ p ∈ rows, delivered p.row =
              match p.result with
              | some (.good y) => some y.data
              | some (.bad _) | some .failed | none => none)
            ∧ (∀ row, row ∉ rowsOf address beats → delivered row = none)
            ∧ exec c s =
              .next { t with
                pendingRead := none, readHeld := false, job := none
                frontResponse := some
                  { okay := rows.all fun p => (delivered p.row).isSome, beats := readBeats address beats delivered } })

/-- A write job from its first read to its end. The rows it has read decide the image and its status, and the merge is
written with a fresh side word; a FULL row is written whole, whatever was read (R12, R136, R141). A BAD PARTIAL row or
a failed read refuses the job; after the last read the freeze flag is looked up again, and a set one refuses it; then
it asks for space, or writes its first row when no row needs a record (R107, R136, R137). Its rows are written in
order; after the last the job ends with success, and a write that fails ends it with its record, PARTIAL_DONE set when
an earlier row was written (R142, R144, R145). As a job ends, its entry leaves the queue and is answered when it is
completed; the held write and the deferred FREEZE that its end takes up are those of their own commands (R106, R115,
R119; log entry 10). -/
def Obligations.WriteJobsGoThroughTheirStages : Prop :=
  (∀ (p : JobRow → Bool) (rows : List JobRow) (i : Nat),
    (∀ k, nextRow p rows i = some k ↔
      i ≤ k ∧ (∃ q, rows[k]? = some q ∧ p q = true) ∧ ∀ m q, i ≤ m → m < k → rows[m]? = some q → p q = false)
    ∧ (nextRow p rows i = none ↔ ∀ m q, i ≤ m → rows[m]? = some q → p q = false))
    ∧ (∀ (j : Job) (k : Nat) (q : JobRow), j.rows[k]? = some q →
        (∀ x, q.result = some (.good x) → j.rowAsRead k = x ∧ j.imageBad k = false)
        ∧ (∀ x, q.result = some (.bad x) → j.rowAsRead k = x ∧ j.imageBad k = true)
        ∧ j.mergedRow k = freshRow q.row (mergeBytes (j.rowAsRead k).data q.data q.enables)
        ∧ (q.enables = 0xFFFF#16 → j.mergedRow k = freshRow q.row q.data))
    ∧ (∀ (s : State) (j j' : Job) (i : Nat) (r : JobRow) (x : Row) (read : RowRead) (e : Entry) (rest : List Entry),
        j.request.isRead = false → j.phase = .reading i → j.rows[i]? = some r → s.frontReads j r.row x →
        s.queue = e :: rest →
        (rowGood r.row x = false → r.cls = .part →
          exec (.memoryAttemptDone none) s =
            .next ((s.portFreed.file (jobFault .rowCheck j.request.address r.row none s.epochOrZero
              (j.mark == some .posted) false)).writeJobEnded e rest false))
        ∧ (((rowGood r.row x = true ∧ read = .good x) ∨ (rowGood r.row x = false ∧ r.cls ≠ .part ∧ read = .bad x)) →
            j' = { j with rows := j.rows.set i { r with result := some read } } →
            (∀ k q, nextRow JobRow.needsRead j.rows (i + 1) = some k → j.rows[k]? = some q →
              exec (.memoryAttemptDone none) s =
                .next (s.portFreed.asksFront { j' with phase := .reading k } (.read q.row)))
            ∧ (nextRow JobRow.needsRead j.rows (i + 1) = none →
                (s.freeze[j.region] = true →
                  exec (.memoryAttemptDone none) s =
                    .next ((s.portFreed.file (jobFault .writeProtected j.request.address
                      (j.request.address.toNat / 16) none s.epochOrZero (j.mark == some .posted)
                      false)).writeJobEnded e rest false))
                ∧ (s.freeze[j.region] = false →
                    ((∃ p ∈ j.rows, p.needsRecord = true) →
                      exec (.memoryAttemptDone none) s =
                        .next (({ s.portFreed with job := some j' } : State).requestSpace j'))
                    ∧ ((∀ p ∈ j.rows, p.needsRecord = false) →
                        ∀ k q, nextRow JobRow.touched j.rows 0 = some k → j.rows[k]? = some q →
                        exec (.memoryAttemptDone none) s =
                          .next (s.portFreed.asksFront { j' with phase := .writing k }
                            (.write q.row (j'.mergedRow k))))))))
    ∧ (∀ (s : State) (j : Job) (i : Nat) (r : JobRow) (c : Instr) (left : Residue) (kind : FaultKind) (e : Entry)
        (rest : List Entry), j.request.isRead = false → j.phase = .reading i → j.rows[i]? = some r →
        s.frontFails j (.read r.row) c left kind → s.queue = e :: rest →
        exec c s =
          .next ((s.portFreed.file (jobFault kind j.request.address r.row none s.epochOrZero
            (j.mark == some .posted) false)).writeJobEnded e rest false))
    ∧ (∀ (s : State) (j : Job) (i : Nat) (r : JobRow) (content : Row) (e : Entry) (rest : List Entry),
        j.phase = .writing i → j.rows[i]? = some r → s.frontWrites j r.row content → s.queue = e :: rest →
        (∀ k q, nextRow JobRow.touched j.rows (i + 1) = some k → j.rows[k]? = some q →
          exec (.memoryAttemptDone none) s =
            .next ((s.wrote r.row content).asksFront { j with phase := .writing k } (.write q.row (j.mergedRow k))))
        ∧ (nextRow JobRow.touched j.rows (i + 1) = none →
            exec (.memoryAttemptDone none) s = .next ((s.wrote r.row content).writeJobEnded e rest true)))
    ∧ (∀ (s : State) (j : Job) (i : Nat) (r : JobRow) (content : Row) (c : Instr) (left : Residue) (kind : FaultKind)
        (e : Entry) (rest : List Entry) (partialDone : Bool), j.phase = .writing i → j.rows[i]? = some r →
        s.frontFails j (.write r.row content) c left kind → s.queue = e :: rest →
        (partialDone = true ↔ ∃ m p, m < i ∧ j.rows[m]? = some p ∧ p.cls ≠ .untouched) →
        exec c s =
          .next (((s.wroteInPart r.row content left).file (jobFault kind j.request.address r.row none s.epochOrZero
            (j.mark == some .posted) partialDone)).writeJobEnded e rest false))
    ∧ ∀ s : State, exec .heldWriteAccept s = .next s.acceptHeldWrite
        ∧ exec .freezeDeferredDecision s = .next s.decideIfDue

/-- An append takes the slot of the tail and the next sequence number, and clears the header first when the slot lies
below the header mark (R16, R22). MEMORY_ATTEMPT_DONE through an append: after the header clear the image is written,
after the image the header, and only when the header write has completed does the record join the table; the next row
that needs a record is then appended, or the first row of the job is written (R17, R22, R140, R142). The final failure
of an append, by FAIL or by TIMEOUT, refuses the job with the memory fault and the slot, its entry leaves the queue and
is answered ERROR when it is completed; the slot table, the row index and the tail stay, and the sequence number stays
consumed (R24, R119, R144, R145). The image status and the sequence number stand beside the entry's three fields (log
entry 17). That the header mark rises when the header write is asked for, even where it waits at the arbiter, is log
entry 25. -/
def Obligations.AppendStepsInOrder : Prop :=
  (∀ (s t : State) (j : Job) (i : Nat),
    t = (if s.nextSequence = 0xFFFFFFFF#32 then { s with exhausted := true }
      else { s with nextSequence := s.nextSequence + 1#32 }) →
    (s.slots.length < s.headerMark →
      s.startAppend j i =
        t.asksFront { j with phase := .appending i s.slots.length s.nextSequence .headerClear }
          (.write (s.base.toNat + 2 + 2 * s.slots.length) (freshRow (s.base.toNat + 2 + 2 * s.slots.length) 0#128)))
    ∧ (s.headerMark ≤ s.slots.length →
        s.startAppend j i =
          t.asksFront { j with phase := .appending i s.slots.length s.nextSequence .imageWrite }
            (.write (s.base.toNat + 3 + 2 * s.slots.length)
              (freshRow (s.base.toNat + 3 + 2 * s.slots.length) (j.rowAsRead i).data))))
    ∧ (∀ (s : State) (f : Flight) (j : Job) (i slot row : Nat) (content : Row) (sequence : Word) (step : AppendStep),
    s.port = .inFlight f → f.requester = .front → f.op = .write row content → s.job = some j →
    j.phase = .appending i slot sequence step →
    (step = .headerClear →
      exec (.memoryAttemptDone none) s =
        .next (({ ({ s with mem := s.mem.write row content } : State).portFreed with
          job := some { j with phase := .appending i slot sequence .imageWrite } } : State).requestPort .front
            (.write (s.base.toNat + 3 + 2 * slot)
              (freshRow (s.base.toNat + 3 + 2 * slot) (j.rowAsRead i).data))))
    ∧ (step = .imageWrite →
        exec (.memoryAttemptDone none) s =
          .next (({ ({ s with mem := s.mem.write row content } : State).portFreed with
            job := some { j with phase := .appending i slot sequence .headerWrite }
            headerMark := max s.headerMark (slot + 1) } : State).requestPort .front
              (.write (s.base.toNat + 2 + 2 * slot)
                (freshRow (s.base.toNat + 2 + 2 * slot)
                  (Header.encode
                    { marker := 0xA#4
                      linked := (indexGet s.index (j.rowNumber i)).isSome
                      imageBad := j.imageBad i
                      epoch := s.epochOrZero
                      sequence := sequence
                      target := BitVec.ofNat 24 (j.rowNumber i)
                      backLink := BitVec.ofNat 16 ((indexGet s.index (j.rowNumber i)).getD 0)
                      side := (j.rowAsRead i).side })))))
    ∧ (step = .headerWrite →
        ∃ t, exec (.memoryAttemptDone none) s = .next t
          ∧ t.slots = s.slots ++
              [{ target := j.rowNumber i, backLink := indexGet s.index (j.rowNumber i), side := (j.rowAsRead i).side }]
          ∧ t.slotHeaders = s.slotHeaders ++ [{ imageBad := j.imageBad i, sequence := sequence }]
          ∧ t.index = indexSet s.index (j.rowNumber i) s.slots.length
          ∧ t.stack = s.stack ∧ t.epoch = s.epoch
          ∧ (nextRow JobRow.needsRecord j.rows (i + 1) = none → t.nextSequence = s.nextSequence)))
    ∧ (∀ (s t : State) (j : Job) (i slot row : Nat) (content : Row) (sequence : Word),
        s.frontWrites j row content → j.phase = .appending i slot sequence .headerWrite →
        t = { s.wrote row content with
          slots := s.slots ++
            [{ target := j.rowNumber i, backLink := indexGet s.index (j.rowNumber i), side := (j.rowAsRead i).side }]
          slotHeaders := s.slotHeaders ++ [{ imageBad := j.imageBad i, sequence := sequence }]
          index := indexSet s.index (j.rowNumber i) s.slots.length } →
        (∀ k, nextRow JobRow.needsRecord j.rows (i + 1) = some k →
          exec (.memoryAttemptDone none) s = .next (t.startAppend j k))
        ∧ ∀ k q, nextRow JobRow.needsRecord j.rows (i + 1) = none → nextRow JobRow.touched j.rows 0 = some k →
            j.rows[k]? = some q →
            exec (.memoryAttemptDone none) s =
              .next (t.asksFront { j with phase := .writing k } (.write q.row (j.mergedRow k))))
    ∧ (∀ (s : State) (op : RowOp) (c : Instr) (left : Residue) (kind : FaultKind) (j : Job) (i slot : Nat)
        (sequence : Word) (step : AppendStep), s.frontFails j op c left kind →
    j.phase = .appending i slot sequence step →
    (∀ (u : State) (e : Entry) (rest : List Entry), s.queue = e :: rest →
      u = (match op with
        | .read _ => s.portFreed
        | .write row content => s.wroteInPart row content left) →
      exec c s =
        .next ((u.file (jobFault kind j.request.address (j.rowNumber i) (some slot) s.epochOrZero
          (j.mark == some .posted) false)).writeJobEnded e rest false))
    ∧ ∃ t, exec c s = .next t
      ∧ t.slots = s.slots ∧ t.slotHeaders = s.slotHeaders ∧ t.index = s.index
      ∧ t.nextSequence = s.nextSequence ∧ t.headerMark = s.headerMark
      ∧ t.job = none
      ∧ t.log = (s.file
          { kind := kind, source := .rowEngine, address := some j.request.address
            row := some (j.rowNumber i), slot := some slot, epoch := s.epochOrZero
            posted := j.mark == some .posted, partialDone := false }).log)

/-! ## The memory port -/

/-- MEMORY_ATTEMPT_DONE makes a write's row persistent and reads a row unchanged (R149, R151). A failed or aborted
attempt that may be retried is retried at once, under the timings the operation was granted with; it leaves a written
row with its former contents, the new ones, or torn and BAD (R149, R150, R151, R153). ATTEMPT_TIMER_EXPIRY presents the
abort request, and until the abort is acknowledged, or a reset, no attempt is issued whatever happens (R150). When the
last attempt of an operation fails, the requester receives the kind of that attempt alone (R152): shown on a restore,
whose image read fails for good (R53, R57); that its record comes before a CKPT_DROPPED of the same event is log entry
39. -/
def Obligations.AttemptsEndOrAreRetried : Prop :=
  (∀ (s : State) (f : Flight) (delivered : Option Row), s.port = .inFlight f →
    ∃ t, exec (.memoryAttemptDone delivered) s = .next t
      ∧ (∀ row content, f.op = .write row content → t.mem = s.mem.write row content)
      ∧ (∀ row, f.op = .read row → delivered = none → t.mem = s.mem))
    ∧ ((∀ (s : State) (f : Flight) (left : Residue), f.attempt ≤ f.retries.toNat →
    (s.port = .inFlight f →
      exec (.memoryAttemptFail left) s =
        .next { s with
          mem := match f.op with
            | .read _ => s.mem
            | .write row content => s.mem.write row (residueRow row (s.mem.read row) content left)
          port := .inFlight { f with attempt := f.attempt + 1, last := some .fail }
          retryCounter := if s.retryCounter = 255#8 then 255#8 else s.retryCounter + 1#8 })
    ∧ (s.port = .aborting f →
        exec (.abortAcknowledge left) s =
          .next { s with
            mem := match f.op with
              | .read _ => s.mem
              | .write row content => s.mem.write row (residueRow row (s.mem.read row) content left)
            port := .inFlight { f with attempt := f.attempt + 1, last := some .timeout }
            retryCounter := if s.retryCounter = 255#8 then 255#8 else s.retryCounter + 1#8 }))
    ∧ ∀ (row : Nat) (former new : Row),
        residueRow row former new .former = former ∧ residueRow row former new .new = new
        ∧ ∀ data damage, rowGood row (residueRow row former new (.torn data damage)) = false)
    ∧ (∀ (s : State) (f : Flight), s.port = .inFlight f →
        exec .attemptTimerExpiry s = .next { s with port := .aborting f })
    ∧ (∀ (c : Instr) (s t : State) (f : Flight), s.port = .aborting f → exec c s = .next t →
        (∀ left, c ≠ .abortAcknowledge left) → (∀ left, c ≠ .rstAssert left) → t.port = .aborting f)
    ∧ ∀ (s : State) (f : Flight) (left : Residue) (k : Nat) (e : SlotEntry) (o : LongOp),
      f.requester = .maint → f.op = .read (s.base.toNat + 3 + 2 * k) → f.retries.toNat < f.attempt →
      s.maint = some (.restoreImage k) → s.slots[k]? = some e → s.longOp = some o → o.origin ≠ .start →
      s.operating ≠ .unconfigured →
      (s.port = .inFlight f →
        exec (.memoryAttemptFail left) s =
          .next ((s.portFreed.file
              { kind := .memoryFail, source := .journalUnit, address := none, row := some e.target, slot := some k
                epoch := s.epochOrZero, posted := false, partialDone := false }).endedWith (.broken .rollBack)
            (o.record .failed none (some .memoryFail) s.epochOrZero)).settleLatch)
      ∧ (s.port = .aborting f →
          exec (.abortAcknowledge left) s =
            .next ((s.portFreed.file
                { kind := .memoryTimeout, source := .journalUnit, address := none, row := some e.target, slot := some k
                  epoch := s.epochOrZero, posted := false, partialDone := false }).endedWith (.broken .rollBack)
              (o.record .failed none (some .memoryTimeout) s.epochOrZero)).settleLatch)

/-! ## The start -/

/-- The start loads copy A and then copy B row by row: a BAD row, a failed read with its record, or a sixteenth row
that does not complete a VALID copy leaves the copy INVALID (R162, R163, R164). When both are classified, the greater
generation is installed, copy A at equal ones; with one VALID copy that one is installed, and CONFIG_DEGRADED names
the first row of the other (the model's choice, log entry 29); with none the part becomes UNCONFIGURED (R76, R165). An
installed configuration is active and staging, its mask is in force, acceptance opens and the request held since before
it is taken in, or refused for its burst (R77, R112, R114, R115, R120); then anchor row A is read in SCANNING, or the
start ends when N_S is 0 (R76, R78, R81). In UNCONFIGURED a held request is answered ERROR with NOT_READY, and a request
in the CKPT latch is dropped with CKPT_DROPPED (R81, R82, R111, R190). Two records of one event come in either order
(log entry 2), but what the installation files comes before the CKPT_DROPPED of a start that ends with it (log entry
33), and the record of a failed read before what the end of the load files (log entry 39). That the NOT_READY record has
no row and no slot is log entry 16. -/
def Obligations.ConfigurationIsLoadedAndSelected : Prop :=
  (∀ (s : State) (copy : Copy) (i row : Nat) (rows : List RowData) (first found : Option ConfigRecord) (x : Row),
    i < 16 → row = (if copy = .a then 0 else 16) + i → s.maintReads (.loadRow copy i rows first) row x →
    (rowGood row x = true → i < 15 →
      exec (.memoryAttemptDone none) s =
        .next (s.portFreed.asksMaint (.loadRow copy (i + 1) (rows ++ [x.data]) first) (.read (row + 1))))
    ∧ (((rowGood row x = false ∧ found = none)
          ∨ (rowGood row x = true ∧ i = 15 ∧ found = classifyCopy (rows ++ [x.data]))) →
        (copy = .a →
          exec (.memoryAttemptDone none) s =
            .next (({ s.portFreed with
              copyA := match found with | some c => .valid c.generation | none => .invalid } : State).asksMaint
                (.loadRow .b 0 [] found) (.read 16)))
        ∧ (copy = .b →
            exec (.memoryAttemptDone none) s =
              .next (({ s.portFreed with
                copyB := match found with | some c => .valid c.generation | none => .invalid } : State).selectConfig
                  first found))))
    ∧ (∀ (s : State) (copy : Copy) (i row : Nat) (rows : List RowData) (first : Option ConfigRecord) (c : Instr)
        (left : Residue) (kind : FaultKind), row = (if copy = .a then 0 else 16) + i →
        s.maintFails (.loadRow copy i rows first) (.read row) c left kind →
        (copy = .a →
          exec c s =
            .next (({ s.portFreed.file (unitFault kind .configurationUnit row none 0#32) with
              copyA := .invalid } : State).asksMaint (.loadRow .b 0 [] none) (.read 16)))
        ∧ (copy = .b →
            exec c s =
              .next (({ s.portFreed.file (unitFault kind .configurationUnit row none 0#32) with
                copyB := .invalid } : State).selectConfig first none)))
    ∧ (∀ rows : List RowData, ∀ c, classifyCopy rows = some c ↔
        c = decodeRecord rows ∧ c.signature = 0x3D94A07C#32 ∧ (∀ d ∈ rows, complementHolds d = true) ∧ c.valid = true)
    ∧ (∀ (s installed : State) (a b : Option ConfigRecord) (c : ConfigRecord) (copy : Copy) (degraded : Option Nat),
        (((∃ o, a = some c ∧ b = some o ∧ o.generation.toNat ≤ c.generation.toNat) ∧ copy = .a ∧ degraded = none)
          ∨ ((∃ o, a = some o ∧ b = some c ∧ o.generation.toNat < c.generation.toNat) ∧ copy = .b ∧ degraded = none)
          ∨ (a = some c ∧ b = none ∧ copy = .a ∧ degraded = some 16)
          ∨ (a = none ∧ b = some c ∧ copy = .b ∧ degraded = some 0)) →
        installed = { s with
          active := some c, staging := c, designation := some copy, alertMask := c.alertMask, maint := none
          configDegraded := degraded.isSome } →
        ∃ t, installed.acceptanceOpens c.ack
            (degraded.map fun row => unitFault .configDegraded .configurationUnit row none 0#32) t
          ∧ (c.nSlots ≠ 0#16 →
              s.selectConfig a b =
                ({ t with
                  journal := .scanning, readHeld := false, headHeld := false
                  longOp := some
                    { kind := .rollback, origin := .start, phase := .executing, skip := false, restored := 0
                      skipped := 0, discarded := 0, carried := 0 } } : State).asksMaint (.anchorRead .a)
                    (.read c.base.toNat))
          ∧ (c.nSlots = 0#16 → s.selectConfig a b = t.startEnded))
    ∧ ∀ s t : State,
        t = { s with
          operating := .unconfigured, staging := ConfigRecord.zero, designation := none, maint := none } →
        (s.held = none → s.selectConfig none none = t.settleLatch)
        ∧ ∀ r notReady, s.held = some r → notReady = requestFault .notReady r.address none 0#32 →
            (s.ckptLatch = false →
              s.selectConfig none none =
                { t.file notReady with held := none, frontResponse := some (refusedResponse r) })
            ∧ (s.ckptLatch = true → ∃ u,
                t.filesBoth notReady
                  { kind := .ckptDropped, source := .controlLinkUnit, address := none, row := none, slot := none
                    epoch := s.epochOrZero, posted := false, partialDone := false } u
                ∧ s.selectConfig none none =
                  { u with
                    held := none, frontResponse := some (refusedResponse r), ckptLatch := false
                    freeCount := s.freeCount + 1 })

/-- The start reads and classifies both anchors: VALID, MISMATCHED and INVALID as R8 gives them, INVALID with a record
for a failed read (R8, R9, R78). Then the greater epoch is selected when both are VALID, and the VALID one otherwise
with ANCHOR_DEGRADED naming the other copy: its epoch is current and slot 0 is scanned. With none VALID the journal is
ABSENT with its reason, and the start ends with no completion record (R78, R81): RUNNING is entered, a request in the
CKPT latch is dropped, and PFW's level is taken (R72, R81, R83). That the records of anchor rows have no slot is log
entry 14; that the record of a failed read comes before a CKPT_DROPPED of the same event, log entry 39. -/
def Obligations.AnchorsAreClassifiedAndSelected : Prop :=
  (∀ (base : BitVec 24) (nSlots : BitVec 16) (row : Nat) (x : Row) (a : Anchor), a = Anchor.decode x.data →
    (∀ e, classifyAnchor base nSlots row x = .valid e ↔
      rowGood row x = true ∧ a.marker = 0x6B31D4E8#32 ∧ a.epoch ≠ 0#32 ∧ a.base = base ∧ a.nSlots = nSlots ∧ a.epoch = e)
    ∧ (classifyAnchor base nSlots row x = .mismatched ↔
        rowGood row x = true ∧ a.marker = 0x6B31D4E8#32 ∧ a.epoch ≠ 0#32 ∧ ¬ (a.base = base ∧ a.nSlots = nSlots)))
    ∧ (∀ (s : State) (row : Nat) (x : Row), row = s.base.toNat → s.maintReads (.anchorRead .a) row x →
        exec (.memoryAttemptDone none) s =
          .next (({ s.portFreed with anchorA := classifyAnchor s.base s.nSlots row x } : State).asksMaint
            (.anchorRead .b) (.read (row + 1))))
    ∧ (∀ (s : State) (row : Nat) (c : Instr) (left : Residue) (kind : FaultKind), row = s.base.toNat →
        s.maintFails (.anchorRead .a) (.read row) c left kind →
        exec c s =
          .next (({ s.portFreed.file (unitFault kind .journalUnit row none 0#32) with
            anchorA := .invalid } : State).asksMaint (.anchorRead .b) (.read (row + 1))))
    ∧ ∀ (s t : State) (row : Nat) (a b : AnchorRecord) (c : Instr), row = s.base.toNat + 1 → a = s.anchorA →
        ((c = .memoryAttemptDone none ∧ t = s.portFreed
            ∧ ∃ x, s.maintReads (.anchorRead .b) row x ∧ b = classifyAnchor s.base s.nSlots row x)
          ∨ (b = .invalid ∧ ∃ left kind, s.maintFails (.anchorRead .b) (.read row) c left kind
              ∧ t = s.portFreed.file (unitFault kind .journalUnit row none 0#32))) →
        (∀ (epoch : Word) (degraded : Option Nat),
          ((∃ ea eb, a = .valid ea ∧ b = .valid eb ∧ epoch = (if ea.toNat < eb.toNat then eb else ea)
              ∧ degraded = none)
            ∨ (a = .valid epoch ∧ (∀ eb, b ≠ .valid eb) ∧ degraded = some row)
            ∨ ((∀ ea, a ≠ .valid ea) ∧ b = .valid epoch ∧ degraded = some s.base.toNat)) →
          exec c s =
            .next (({ (match degraded with
                | none => t
                | some r => t.file (unitFault .anchorDegraded .journalUnit r none epoch)) with
              anchorB := b, epoch := some epoch } : State).asksMaint (.scanHeader 0 [] [])
                (.read (s.base.toNat + 2))))
        ∧ ((∀ ea, a ≠ .valid ea) → (∀ eb, b ≠ .valid eb) →
            exec c s =
              .next ({ t with
                anchorB := b, readHeld := false, headHeld := false, longOp := none, maint := none
                journal := .absent
                  (if a = .mismatched ∨ b = .mismatched then .anchorMismatch else .anchorLost) } : State).startEnded)

/-- The recovery scan accepts a slot on the four conditions of R79, and goes on while it accepts. As it stops, with no
record below the last epoch the start ends OPEN in the current epoch; with records ROLLING_BACK is entered over the
tables built from them, and the newest image is read; with none in the last epoch the wipe begins (R52, R56, R80, R81).
A failed header read files its record and ends the recovery FAILED in BROKEN (R79, R80). As the start ends, RUNNING is
entered, a request in the CKPT latch is taken as a COMMIT of origin LINE in OPEN and dropped otherwise, and PFW's level
is taken (R72, R81, R83). The header mark becomes N_S where the recovery ends; while a rollback or an advance is still
to come it keeps its start value, as R17 and R79 have it, beside the N_S that R80 sets as the scan stops, which it
takes at the end (the model's choice, log entry 27). The image status and the sequence number that the scan takes stand
beside the entry's three fields (log entry 17); that the record of a failed read comes before a CKPT_DROPPED of the
same event, log entry 39. -/
def Obligations.RecoveryScansTheSlots : Prop :=
  (∀ (s : State) (k : Nat) (last : Option Word) (accepted : List SlotEntry) (x : Row) (h : Header),
    h = Header.decode x.data →
    (s.headerAccepted k last accepted x = true ↔
      rowGood (s.base.toNat + 2 + 2 * k) x = true ∧ h.marker = 0xA#4 ∧ h.epoch ≠ 0#32 ∧ h.target.toNat < s.memSize
      ∧ s.epoch = some h.epoch ∧ (∀ q, last = some q → q.toNat < h.sequence.toNat)
      ∧ (h.linked = true → ∃ e, accepted[h.backLink.toNat]? = some e ∧ e.target = h.target.toNat
          ∧ ∀ m e, h.backLink.toNat < m → accepted[m]? = some e → e.target ≠ h.target.toNat)
      ∧ (h.linked = false → ∀ e ∈ accepted, e.target ≠ h.target.toNat)))
    ∧ (∀ (s : State) (k row : Nat) (last : Option Word) (headers taken : List SlotHeader)
        (accepted found : List SlotEntry) (x : Row) (h : Header) (o : LongOp), h = Header.decode x.data →
        row = s.base.toNat + 2 + 2 * k → s.maintReads (.scanHeader k headers accepted) row x → s.longOp = some o →
        o.kind = .rollback → last = headers.getLast?.map SlotHeader.sequence →
        taken = headers ++ [{ imageBad := h.imageBad, sequence := h.sequence }] →
        found = accepted ++
          [{ target := h.target.toNat, backLink := if h.linked then some h.backLink.toNat else none, side := h.side }] →
        (s.headerAccepted k last accepted x = true → k + 1 < s.nSlots.toNat →
          exec (.memoryAttemptDone none) s =
            .next (s.portFreed.asksMaint (.scanHeader (k + 1) taken found) (.read (row + 2))))
        ∧ ∀ slots slotHeaders,
            (s.headerAccepted k last accepted x = false ∧ slots = accepted ∧ slotHeaders = headers)
              ∨ (s.headerAccepted k last accepted x = true ∧ s.nSlots.toNat ≤ k + 1 ∧ slots = found
                ∧ slotHeaders = taken) →
            (slots = [] → s.epochOrZero ≠ 0xFFFFFFFF#32 →
              exec (.memoryAttemptDone none) s =
                .next ({ s.portFreed with
                  slots := [], slotHeaders := slotHeaders, index := [], stack := [], nextSequence := 0#32
                  exhausted := false, headerMark := s.nSlots.toNat, journal := .opened
                  readHeld := false, headHeld := false
                  longOp := none, maint := none } : State).startEnded)
            ∧ (slots = [] → s.epochOrZero = 0xFFFFFFFF#32 →
                exec (.memoryAttemptDone none) s =
                  .next (({ s.portFreed with
                    slots := [], slotHeaders := slotHeaders, index := [], stack := [], journal := .rollingBack
                    recoveryMark := some s.nSlots.toNat, readHeld := false, headHeld := false } : State).asksMaint
                      (.wipeHeader 0 false) (.write (s.base.toNat + 2) (freshRow (s.base.toNat + 2) 0#128))))
            ∧ (slots ≠ [] → ∃ index, indexRising index ∧ (∀ r, indexGet index r = newestSlot slots r)
                ∧ exec (.memoryAttemptDone none) s =
                  .next (({ s.portFreed with
                    slots := slots, slotHeaders := slotHeaders, index := index, stack := []
                    recoveryMark := some s.nSlots.toNat, journal := .rollingBack, readHeld := false
                    headHeld := false } : State).asksMaint (.restoreImage (slots.length - 1))
                      (.read (s.base.toNat + 3 + 2 * (slots.length - 1))))))
    ∧ ∀ (s : State) (k row : Nat) (headers : List SlotHeader) (accepted : List SlotEntry) (c : Instr)
        (left : Residue) (kind : FaultKind) (o : LongOp), row = s.base.toNat + 2 + 2 * k →
        s.maintFails (.scanHeader k headers accepted) (.read row) c left kind → s.longOp = some o → o.origin = .start →
        ∃ index, indexRising index ∧ (∀ r, indexGet index r = newestSlot accepted r)
          ∧ exec c s =
            .next (({ s.portFreed.file (unitFault kind .journalUnit row (some k) s.epochOrZero) with
                slots := accepted, slotHeaders := headers, index := index, stack := []
                headerMark := s.nSlots.toNat, recoveryMark := none } : State).endedWith
                  (.broken .rollBack) (o.record .failed none (some kind) s.epochOrZero)).startEnded

/-- A rollback whose last record is restored goes on to the epoch advance, and in the last epoch to its wipe (R25,
R27, R56, R80). The start's rollback ends DONE in OPEN with an empty journal, in the epoch of its confirmed anchor, or
of the second one after a wipe (R26, R27, R80). A BAD image files IMAGE_CHECK; an anchor found otherwise files
MEMORY_FAIL; an image read, a target write, a header write of the wipe, an anchor write or a confirming read that fails
for good files its memory fault: each ends the start's rollback FAILED in BROKEN with action ROLL_BACK and the header
mark N_S that R80 has set as the scan stopped, and the tables emptied once the wipe has begun (R17, R25, R27, R53, R57,
R63, R80). As it ends, RUNNING is entered, a request in the CKPT latch is taken as a COMMIT in OPEN and dropped
otherwise, and PFW's level is taken (R72, R81, R83). The start's recovery is on MAINT in SCANNING, or in ROLLING_BACK
with the mark N_S, after every step. The header mark's moment is log entry 27; the moment at which the anchor's record
becomes INVALID, log entry 25; the row and the slot of the record of a failed wipe write, log entry 13; that the record
of an anchor has no slot, log entry 14; that the record comes before a CKPT_DROPPED of the same event, log entry 39. -/
def Obligations.RollbackEndsWithTheAdvance : Prop :=
  (∀ (s : State) (e : SlotEntry) (content : Row) (o : LongOp) (copy : Copy) (row : Nat), s.slots = [e] →
    s.maintWrites (.restoreTarget 0) e.target content → s.longOp = some o → (o.kind = .rollback ∨ o.kind = .resume) →
    copy = chooseAnchor s.anchorA s.anchorB → row = s.base.toNat + (if copy = Copy.a then 0 else 1) →
    ∀ t : State,
      t = { s.wrote e.target content with
        slots := [], slotHeaders := s.slotHeaders.dropLast
        index := match e.backLink with
          | some b => indexSet s.index e.target b
          | none => indexErase s.index e.target
        longOp := some { o with restored := o.restored + 1 } } →
      (s.epochOrZero ≠ 0xFFFFFFFF#32 →
        exec (.memoryAttemptDone none) s =
          .next (({ t with
              anchorA := if copy = Copy.a then .invalid else s.anchorA
              anchorB := if copy = Copy.b then .invalid else s.anchorB } : State).asksMaint
                (.anchorWrite .advance copy (s.epochOrZero + 1#32))
            (.write row (freshRow row
              (Anchor.encode { marker := 0x6B31D4E8#32, epoch := s.epochOrZero + 1#32, base := s.base,
                               nSlots := s.nSlots })))))
      ∧ (s.epochOrZero = 0xFFFFFFFF#32 →
          exec (.memoryAttemptDone none) s =
            .next (t.asksMaint (.wipeHeader 0 false)
              (.write (s.base.toNat + 2) (freshRow (s.base.toNat + 2) 0#128)))))
    ∧ (∀ s t : State, s.configLaw → s.recoveryLaw → step s = .next t → t.recoveryLaw)
    ∧ (∀ (s : State) (o : LongOp) (goal : AnchorGoal) (copy : Copy) (epoch : Word) (row : Nat) (x : Row),
        row = s.base.toNat + (if copy = Copy.a then 0 else 1) → (goal = .advance ∨ goal = .wipeSecond) →
        s.maintReads (.anchorConfirm goal copy epoch) row x → s.longOp = some o → o.origin = .start →
        rowGood row x = true →
        Anchor.decode x.data = { marker := 0x6B31D4E8#32, epoch := epoch, base := s.base, nSlots := s.nSlots } →
        exec (.memoryAttemptDone none) s =
          .next ({ ({ s.portFreed with
              anchorA := if copy = Copy.a then .valid epoch else s.anchorA
              anchorB := if copy = Copy.b then .valid epoch else s.anchorB
              epoch := some epoch, slots := []
              slotHeaders := [], index := [], stack := [], nextSequence := 0#32, exhausted := false
              headerMark := 0 } : State).endedWith .opened (o.record .done none none epoch) with
            recoveryMark := none } : State).startEnded)
    ∧ ∀ (s u : State) (o : LongOp) (e : SlotEntry) (goal : AnchorGoal) (copy : Copy) (epoch : Word) (c : Instr)
        (left : Residue) (kind : FaultKind) (k row : Nat) (slot : Option Nat) (content x : Row) (lost : Bool),
        s.recoveryLaw → s.longOp = some o → o.origin = .start → s.journal = .rollingBack →
        ((slot = some k ∧ s.slots[k]? = some e ∧ row = e.target ∧ lost = false
            ∧ ((s.maintReads (.restoreImage k) (s.base.toNat + 3 + 2 * k) x
                ∧ rowGood (s.base.toNat + 3 + 2 * k) x = false ∧ c = .memoryAttemptDone none ∧ kind = .imageCheck
                ∧ u = s.portFreed)
              ∨ (s.maintFails (.restoreImage k) (.read (s.base.toNat + 3 + 2 * k)) c left kind ∧ u = s.portFreed)
              ∨ (s.maintFails (.restoreTarget k) (.write e.target content) c left kind
                ∧ u = s.wroteInPart e.target content left)))
          ∨ (slot = none ∧ row = s.base.toNat + (if copy = Copy.a then 0 else 1)
            ∧ ((goal = .advance ∧ lost = false) ∨ ((goal = .wipeFirst ∨ goal = .wipeSecond) ∧ lost = true))
            ∧ ((s.maintReads (.anchorConfirm goal copy epoch) row x ∧ c = .memoryAttemptDone none ∧ kind = .memoryFail
                ∧ ¬ (rowGood row x = true ∧ Anchor.decode x.data =
                  { marker := 0x6B31D4E8#32, epoch := epoch, base := s.base, nSlots := s.nSlots })
                ∧ u = s.portFreed)
              ∨ (s.maintFails (.anchorConfirm goal copy epoch) (.read row) c left kind ∧ u = s.portFreed)
              ∨ (s.maintFails (.anchorWrite goal copy epoch) (.write row content) c left kind
                ∧ u = s.wroteInPart row content left)))
          ∨ (slot = some k ∧ row = s.base.toNat + 2 + 2 * k ∧ lost = true
            ∧ s.maintFails (.wipeHeader k false) (.write row content) c left kind
            ∧ u = s.wroteInPart row content left)) →
        exec c s =
          .next ({ (({ u.file (unitFault kind .journalUnit row slot s.epochOrZero) with
              slots := if lost then [] else s.slots, slotHeaders := if lost then [] else s.slotHeaders
              index := if lost then [] else s.index, stack := if lost then [] else s.stack } : State).endedWith
                (.broken .rollBack) (o.record .failed none (some kind) s.epochOrZero)) with
            headerMark := s.nSlots.toNat, recoveryMark := none } : State).startEnded

/-! ## The journal's own work -/

/-- DRAIN_END executes a SAVE: with depth 0 to 6 the tail is pushed and the SAVE ends DONE, with depth 7 it ends
REFUSED with STACK_FULL; nothing else changes but the end of the operation (R30, R70). DRAIN_END executes a RELEASE:
with depth 1 to 7 the top position is removed and the RELEASE ends DONE, with depth 0 it ends REFUSED with
NO_SAVEPOINT; nothing else changes but the end of the operation (R31, R70). DRAIN_END as an explicit step is log entry
11. -/
def Obligations.SavepointsArePushedAndPopped : Prop :=
  (∀ (s : State) (origin : Origin) (skip : Bool), s.drainEnded (LongOp.created .save origin skip) → origin ≠ .start →
    s.operating ≠ .unconfigured → s.journal = JournalState.draining →
    (s.stack.length < 7 →
      exec .drainEnd s =
        .next ({ s with stack := s.slots.length :: s.stack }.endedWith .opened
          { operation := .save, origin := origin, result := .done, reason := none, epochAfter := s.epochOrZero
            restored := 0, skipped := 0, discarded := 0, carried := 0, fault := none, overrun := false }).settleLatch)
    ∧ (s.stack.length = 7 →
        exec .drainEnd s =
          .next (s.endedWith .opened
            { operation := .save, origin := origin, result := .refused, reason := some .stackFull
              epochAfter := s.epochOrZero, restored := 0, skipped := 0, discarded := 0, carried := 0, fault := none
              overrun := false }).settleLatch))
    ∧ (∀ (s : State) (origin : Origin) (skip : Bool), s.drainEnded (LongOp.created .release origin skip) →
    origin ≠ .start → s.operating ≠ .unconfigured → s.journal = JournalState.draining →
    (∀ top rest, s.stack = top :: rest →
      exec .drainEnd s =
        .next ({ s with stack := rest }.endedWith .opened
          { operation := .release, origin := origin, result := .done, reason := none, epochAfter := s.epochOrZero
            restored := 0, skipped := 0, discarded := 0, carried := 0, fault := none, overrun := false }).settleLatch)
    ∧ (s.stack = [] →
        exec .drainEnd s =
          .next (s.endedWith .opened
            { operation := .release, origin := origin, result := .refused, reason := some .noSavepoint
              epochAfter := s.epochOrZero, restored := 0, skipped := 0, discarded := 0, carried := 0, fault := none
              overrun := false }).settleLatch))

/-- The anchor copy that an advance writes: A when A's record is not VALID or holds a lower epoch than B's, and B
otherwise (R25). DRAIN_END executes a COMMIT or a ROLLBACK of an empty journal: the stack is emptied and the operation
ends EMPTY in the unchanged epoch (R56, R58). DRAIN_END executes a COMMIT with records: COMMITTING is entered, and the
chosen anchor copy is written with the next epoch, its record INVALID; in the last epoch the wipe of the headers
begins instead (R25, R27, R58). DRAIN_END as an explicit step is log entry 11; the moment at which the anchor's record
becomes INVALID, log entry 25. -/
def Obligations.CommitBeginsTheAdvance : Prop :=
  ((∀ b, chooseAnchor .invalid b = .a ∧ chooseAnchor .mismatched b = .a)
    ∧ (∀ ea b, (∀ eb, b ≠ .valid eb) → chooseAnchor (.valid ea) b = .b)
    ∧ ∀ ea eb, chooseAnchor (.valid ea) (.valid eb) = if ea.toNat < eb.toNat then .a else .b)
    ∧ (∀ (s : State) (o : LongOp), s.drainEnded o → (o.kind = .commit ∨ o.kind = .rollback) → o.origin ≠ .start →
    s.operating ≠ .unconfigured → s.slots = [] → s.exhausted = false →
    exec .drainEnd s =
      .next ({ s with stack := [] }.endedWith .opened (o.record .empty none none s.epochOrZero)).settleLatch)
    ∧ (∀ (s : State) (o : LongOp), s.drainEnded o → o.kind = .commit → (s.slots ≠ [] ∨ s.exhausted = true) →
    (s.epochOrZero ≠ 0xFFFFFFFF#32 → ∀ copy row, copy = chooseAnchor s.anchorA s.anchorB →
      row = s.base.toNat + (if copy = Copy.a then 0 else 1) →
      exec .drainEnd s =
        .next ((({ s with
            longOp := some { o with phase := .executing }
            journal := .committing, readHeld := false, headHeld := false
            anchorA := if copy = Copy.a then .invalid else s.anchorA
            anchorB := if copy = Copy.b then .invalid else s.anchorB
            maint := some (.anchorWrite .advance copy (s.epochOrZero + 1#32)) } : State)).requestPort .maint
          (.write row (freshRow row
            (Anchor.encode { marker := 0x6B31D4E8#32, epoch := s.epochOrZero + 1#32, base := s.base,
                             nSlots := s.nSlots })))))
    ∧ (s.epochOrZero = 0xFFFFFFFF#32 →
        exec .drainEnd s =
          .next (({ s with
              longOp := some { o with phase := .executing }
              journal := .committing, readHeld := false, headHeld := false
              maint := some (.wipeHeader 0 false) } : State).requestPort .maint
            (.write (s.base.toNat + 2) (freshRow (s.base.toNat + 2) 0#128)))))

/-- MEMORY_ATTEMPT_DONE of the confirming read of the anchor of a COMMIT, a ROLLBACK or a RESUME. A GOOD row with the
four fields as intended, whatever its unused bytes: the new epoch is current, the journal is empty, and the operation
ends DONE in OPEN with its counts; other contents leave the epoch and every record, and a COMMIT ends FAILED in OPEN,
a ROLLBACK or a RESUME FAILED in BROKEN with the action it had (R25, R26, R56, R57, R59, R64, R66, R200). That the
record of the anchor has no slot is log entry 14; that it comes before a CKPT_DROPPED of the same event, log entry 39.
-/
def Obligations.ConfirmedAnchorEndsTheAdvance : Prop :=
  ∀ (s : State) (f : Flight) (o : LongOp) (copy : Copy) (epoch : Word) (row : Nat), s.port = .inFlight f →
    f.requester = .maint → f.op = .read row → row = s.base.toNat + (if copy = Copy.a then 0 else 1) →
    s.maint = some (.anchorConfirm .advance copy epoch) → s.longOp = some o → o.origin ≠ .start →
    s.operating ≠ .unconfigured →
    ((rowGood row (s.mem.read row) = true
        ∧ Anchor.decode (s.mem.read row).data =
          { marker := 0x6B31D4E8#32, epoch := epoch, base := s.base, nSlots := s.nSlots }) →
      exec (.memoryAttemptDone none) s =
        .next ({ s.portFreed with
            anchorA := if copy = Copy.a then .valid epoch else s.anchorA
            anchorB := if copy = Copy.b then .valid epoch else s.anchorB
            epoch := some epoch, slots := []
            slotHeaders := [], index := [], stack := [], nextSequence := 0#32, exhausted := false
            headerMark := 0 }.endedWith .opened (o.record .done none none epoch)).settleLatch)
    ∧ (¬ (rowGood row (s.mem.read row) = true
          ∧ Anchor.decode (s.mem.read row).data =
            { marker := 0x6B31D4E8#32, epoch := epoch, base := s.base, nSlots := s.nSlots }) →
        exec (.memoryAttemptDone none) s =
          .next (((s.portFreed.file
              { kind := .memoryFail, source := .journalUnit, address := none, row := some row, slot := none
                epoch := s.epochOrZero, posted := false, partialDone := false })).endedWith
            (if o.kind = .commit then .opened
              else .broken (if s.journal = .committing then .completeCommit else .rollBack))
            (o.record .failed none (some .memoryFail) s.epochOrZero)).settleLatch)

/-- DRAIN_END executes an UNDO: without a savepoint it ends REFUSED with NO_SAVEPOINT; with one it enters UNDOING and
reads the image of the newest slot, or ends DONE when the tail is already at the savepoint (R52, R54). DRAIN_END
executes a ROLLBACK with records, or a RESUME of a broken rollback: ROLLING_BACK is entered with the stack emptied,
and the image of the newest slot is read (R32, R52, R56, R64). DRAIN_END executes a RESUME of a broken commit, or a
ROLLBACK or a RESUME of a broken rollback without a record to restore: COMMITTING or ROLLING_BACK is entered, and the
advance alone is made (R26, R27, R56, R64, R66). DRAIN_END as an explicit step is log entry 11; the moment at which
the anchor's record becomes INVALID, log entry 25. -/
def Obligations.RestoresBeginAtTheTail : Prop :=
  (∀ (s : State) (o : LongOp), s.drainEnded o → o.kind = .undo → o.origin ≠ .start → s.operating ≠ .unconfigured →
    s.journal = JournalState.draining →
    (s.stack = [] →
      exec .drainEnd s =
        .next (s.endedWith .opened (o.record .refused (some .noSavepoint) none s.epochOrZero)).settleLatch)
    ∧ (∀ top rest, s.stack = top :: rest → top < s.slots.length →
        exec .drainEnd s =
          .next (({ s with
              longOp := some { o with phase := .executing }
              journal := .undoing, readHeld := false, headHeld := false
              maint := some (.restoreImage (s.slots.length - 1)) } : State).requestPort .maint
            (.read (s.base.toNat + 3 + 2 * (s.slots.length - 1)))))
    ∧ (∀ top rest, s.stack = top :: rest → s.slots.length ≤ top →
        exec .drainEnd s =
          .next (s.endedWith .opened (o.record .done none none s.epochOrZero)).settleLatch))
    ∧ (∀ (s : State) (o : LongOp), s.drainEnded o →
    (o.kind = .rollback ∨ (o.kind = .resume ∧ s.journal = .broken .rollBack)) → s.slots ≠ [] →
    exec .drainEnd s =
      .next (({ s with
          longOp := some { o with phase := .executing }
          journal := .rollingBack, readHeld := false, headHeld := false, stack := []
          maint := some (.restoreImage (s.slots.length - 1)) } : State).requestPort .maint
        (.read (s.base.toNat + 3 + 2 * (s.slots.length - 1)))))
    ∧ (∀ (s t : State) (o : LongOp) (copy : Copy) (row : Nat), s.drainEnded o →
        ((o.kind = .resume ∧ s.journal = .broken .completeCommit
            ∧ t = { s with
              longOp := some { o with phase := .executing }
              journal := .committing, readHeld := false, headHeld := false })
          ∨ (((o.kind = .rollback ∧ s.exhausted = true) ∨ (o.kind = .resume ∧ s.journal = .broken .rollBack))
            ∧ s.slots = []
            ∧ t = { s with
              longOp := some { o with phase := .executing }
              journal := .rollingBack, readHeld := false, headHeld := false, stack := [] })) →
        copy = chooseAnchor s.anchorA s.anchorB → row = s.base.toNat + (if copy = Copy.a then 0 else 1) →
        (s.epochOrZero ≠ 0xFFFFFFFF#32 →
          exec .drainEnd s =
            .next (({ t with
                anchorA := if copy = Copy.a then .invalid else s.anchorA
                anchorB := if copy = Copy.b then .invalid else s.anchorB } : State).asksMaint
              (.anchorWrite .advance copy (s.epochOrZero + 1#32))
              (.write row (freshRow row
                (Anchor.encode { marker := 0x6B31D4E8#32, epoch := s.epochOrZero + 1#32, base := s.base,
                                 nSlots := s.nSlots })))))
        ∧ (s.epochOrZero = 0xFFFFFFFF#32 →
            exec .drainEnd s =
              .next (t.asksMaint (.wipeHeader 0 false)
                (.write (s.base.toNat + 2) (freshRow (s.base.toNat + 2) 0#128)))))

/-- MEMORY_ATTEMPT_DONE through a restore: a GOOD image is written to its target with the record's original side word,
and when the target is written the row's index entry is repaired, the slot leaves the table, and one more row is
restored (R12, R35, R52). The restore that reaches the savepoint of an UNDO ends it DONE (R54). A BAD image is skipped
by a RESUME with the skip flag: its record is filed, the index repaired, the slot leaves the table, one more record is
skipped, and the next restore or the advance follows (R65). Without it a BAD image, a failed image read or a failed
target write files its record and ends the operation FAILED in BROKEN with action ROLL_BACK (R53, R55, R57, R64). The
moment at which an anchor's record becomes INVALID is log entry 25; that the record filed comes before a CKPT_DROPPED of
the same event, log entry 39. -/
def Obligations.RestoreWritesImageAndRepairsIndex : Prop :=
  (∀ (s : State) (f : Flight) (slots : List SlotEntry) (e : SlotEntry) (o : LongOp), s.port = .inFlight f →
    f.requester = .maint → s.slots = slots ++ [e] → s.longOp = some o →
    (∀ x, s.maint = some (.restoreImage slots.length) → f.op = .read (s.base.toNat + 3 + 2 * slots.length) →
      s.mem.read (s.base.toNat + 3 + 2 * slots.length) = x →
      rowGood (s.base.toNat + 3 + 2 * slots.length) x = true →
      exec (.memoryAttemptDone none) s =
        .next (({ s.portFreed with maint := some (.restoreTarget slots.length) } : State).requestPort .maint
          (.write e.target { data := x.data, side := e.side })))
    ∧ (∀ content, s.maint = some (.restoreTarget slots.length) → f.op = .write e.target content →
        (o.kind = .undo → s.segmentStart < slots.length) → slots ≠ [] →
        exec (.memoryAttemptDone none) s =
          .next (({ ({ s with mem := s.mem.write e.target content } : State).portFreed with
              slots := slots, slotHeaders := s.slotHeaders.dropLast
              index := match e.backLink with
                | some b => indexSet s.index e.target b
                | none => indexErase s.index e.target
              longOp := some { o with restored := o.restored + 1 }
              maint := some (.restoreImage (slots.length - 1)) } : State).requestPort .maint
            (.read (s.base.toNat + 3 + 2 * (slots.length - 1))))))
    ∧ ∀ (s : State) (slots : List SlotEntry) (e : SlotEntry) (o : LongOp) (index : List (Nat × Nat)),
        s.slots = slots ++ [e] → s.longOp = some o →
        index = (match e.backLink with
          | some b => indexSet s.index e.target b
          | none => indexErase s.index e.target) →
        (∀ content, s.maintWrites (.restoreTarget slots.length) e.target content → o.kind = .undo →
          slots.length ≤ s.segmentStart → o.origin ≠ .start → s.operating ≠ .unconfigured →
          exec (.memoryAttemptDone none) s =
            .next (({ s.wrote e.target content with
                slots := slots, slotHeaders := s.slotHeaders.dropLast, index := index } : State).endedWith .opened
              ({ o with restored := o.restored + 1 }.record .done none none s.epochOrZero)).settleLatch)
        ∧ (∀ (x : Row) (t : State),
            s.maintReads (.restoreImage slots.length) (s.base.toNat + 3 + 2 * slots.length) x →
            rowGood (s.base.toNat + 3 + 2 * slots.length) x = false → o.kind = .resume → o.skip = true →
            t = { s.portFreed.file (unitFault .imageCheck .journalUnit e.target (some slots.length) s.epochOrZero) with
              slots := slots, slotHeaders := s.slotHeaders.dropLast, index := index
              longOp := some { o with skipped := o.skipped + 1 } } →
            (slots ≠ [] →
              exec (.memoryAttemptDone none) s =
                .next (t.asksMaint (.restoreImage (slots.length - 1))
                  (.read (s.base.toNat + 3 + 2 * (slots.length - 1)))))
            ∧ (slots = [] → s.epochOrZero ≠ 0xFFFFFFFF#32 → ∀ copy row, copy = chooseAnchor s.anchorA s.anchorB →
                row = s.base.toNat + (if copy = Copy.a then 0 else 1) →
                exec (.memoryAttemptDone none) s =
                  .next (({ t with
                      anchorA := if copy = Copy.a then .invalid else s.anchorA
                      anchorB := if copy = Copy.b then .invalid else s.anchorB } : State).asksMaint
                    (.anchorWrite .advance copy (s.epochOrZero + 1#32))
                    (.write row (freshRow row
                      (Anchor.encode { marker := 0x6B31D4E8#32, epoch := s.epochOrZero + 1#32, base := s.base,
                                       nSlots := s.nSlots })))))
            ∧ (slots = [] → s.epochOrZero = 0xFFFFFFFF#32 →
                exec (.memoryAttemptDone none) s =
                  .next (t.asksMaint (.wipeHeader 0 false)
                    (.write (s.base.toNat + 2) (freshRow (s.base.toNat + 2) 0#128)))))
        ∧ ∀ (u : State) (c : Instr) (kind : FaultKind),
            ((c = .memoryAttemptDone none ∧ kind = .imageCheck ∧ u = s.portFreed ∧ ¬ (o.kind = .resume ∧ o.skip = true)
                ∧ ∃ x, s.maintReads (.restoreImage slots.length) (s.base.toNat + 3 + 2 * slots.length) x
                  ∧ rowGood (s.base.toNat + 3 + 2 * slots.length) x = false)
              ∨ (u = s.portFreed ∧ ∃ left, s.maintFails (.restoreImage slots.length)
                  (.read (s.base.toNat + 3 + 2 * slots.length)) c left kind)
              ∨ (∃ left content, u = s.wroteInPart e.target content left
                  ∧ s.maintFails (.restoreTarget slots.length) (.write e.target content) c left kind)) →
            o.origin ≠ .start → s.operating ≠ .unconfigured →
            exec c s =
              .next ((u.file (unitFault kind .journalUnit e.target (some slots.length) s.epochOrZero)).endedWith
                (.broken .rollBack) (o.record .failed none (some kind) s.epochOrZero)).settleLatch

/-- DRAIN_END executes a FORMAT: taken in OPEN with records it ends REFUSED with RECORDS_PRESENT; otherwise FORMATTING
is entered, the journal is emptied on chip, and anchor row A is read (R67, R68). DRAIN_END as an explicit step is log
entry 11. -/
def Obligations.FormatBeginsWithTheAnchors : Prop :=
  ∀ (s : State) (o : LongOp), s.drainEnded o → o.kind = .format → o.origin ≠ .start → s.operating ≠ .unconfigured →
    (s.journal = JournalState.draining → s.slots ≠ [] →
      exec .drainEnd s =
        .next (s.endedWith .opened (o.record .refused (some .recordsPresent) none s.epochOrZero)).settleLatch)
    ∧ ((s.journal ≠ .draining ∨ s.slots = []) →
        exec .drainEnd s =
          .next (({ s with
              longOp := some { o with phase := .executing }
              journal := .formatting, readHeld := false, headHeld := false, slots := []
              slotHeaders := [], index := [], stack := []
              maint := some (.formatAnchor .a s.epochOrZero) } : State).requestPort .maint (.read s.base.toNat)))

/-- A FORMAT reads anchor A, anchor B and every header in order, and takes the greatest epoch of the GOOD rows whose
marker matches; a failed anchor read contributes nothing and files its record (log entry 12), a failed header read
ends the FORMAT (R68, R69, R152). Then it writes the first anchor with the next epoch, or begins the wipe in the last
one (R25, R68). A failed FORMAT is ABSENT with ANCHOR_LOST, without an epoch; the next sequence number and the header
mark stay, the model's choice, log entry 28 (R69), and its record carries the epoch before the drop, log entry 34, and
comes before a CKPT_DROPPED of the same event, log entry 39. The moment at which an anchor's record becomes INVALID is
log entry 25. With its end a latched request is settled, and a first APPLY leaves UNCONFIGURED (R72, R82, R174). -/
def Obligations.FormatFindsItsEpoch : Prop :=
  (∀ (s : State) (g : Word) (x : Row) (a : Anchor) (found : Word), a = Anchor.decode x.data → 0 < s.nSlots.toNat →
    (s.maintReads (.formatAnchor .a g) s.base.toNat x →
      found = (if rowGood s.base.toNat x = true ∧ a.marker = 0x6B31D4E8#32 ∧ g.toNat < a.epoch.toNat then a.epoch else g) →
      exec (.memoryAttemptDone none) s =
        .next (s.portFreed.asksMaint (.formatAnchor .b found) (.read (s.base.toNat + 1))))
    ∧ (s.maintReads (.formatAnchor .b g) (s.base.toNat + 1) x →
        found = (if rowGood (s.base.toNat + 1) x = true ∧ a.marker = 0x6B31D4E8#32 ∧ g.toNat < a.epoch.toNat then a.epoch
          else g) →
        exec (.memoryAttemptDone none) s =
          .next (s.portFreed.asksMaint (.formatHeader 0 found) (.read (s.base.toNat + 2)))))
    ∧ (∀ (s : State) (g : Word) (c : Instr) (left : Residue) (kind : FaultKind), 0 < s.nSlots.toNat →
        (s.maintFails (.formatAnchor .a g) (.read s.base.toNat) c left kind →
          exec c s =
            .next ((s.portFreed.file (unitFault kind .journalUnit s.base.toNat none s.epochOrZero)).asksMaint
              (.formatAnchor .b g) (.read (s.base.toNat + 1))))
        ∧ (s.maintFails (.formatAnchor .b g) (.read (s.base.toNat + 1)) c left kind →
            exec c s =
              .next ((s.portFreed.file (unitFault kind .journalUnit (s.base.toNat + 1) none s.epochOrZero)).asksMaint
                (.formatHeader 0 g) (.read (s.base.toNat + 2)))))
    ∧ (∀ (s : State) (k row : Nat) (g found : Word) (x : Row) (h : Header), h = Header.decode x.data →
        row = s.base.toNat + 2 + 2 * k → s.maintReads (.formatHeader k g) row x →
        found = (if rowGood row x = true ∧ h.marker = 0xA#4 ∧ g.toNat < h.epoch.toNat then h.epoch else g) →
        (k + 1 < s.nSlots.toNat →
          exec (.memoryAttemptDone none) s =
            .next (s.portFreed.asksMaint (.formatHeader (k + 1) found) (.read (row + 2))))
        ∧ (s.nSlots.toNat ≤ k + 1 → found = 0xFFFFFFFF#32 →
            exec (.memoryAttemptDone none) s =
              .next (s.portFreed.asksMaint (.wipeHeader 0 true)
                (.write (s.base.toNat + 2) (freshRow (s.base.toNat + 2) 0#128))))
        ∧ (s.nSlots.toNat ≤ k + 1 → found ≠ 0xFFFFFFFF#32 → ∀ copy r, copy = chooseAnchor s.anchorA s.anchorB →
            r = s.base.toNat + (if copy = Copy.a then 0 else 1) →
            exec (.memoryAttemptDone none) s =
              .next (({ s.portFreed with
                  anchorA := if copy = Copy.a then .invalid else s.anchorA
                  anchorB := if copy = Copy.b then .invalid else s.anchorB } : State).asksMaint
                (.anchorWrite .formatFirst copy (found + 1#32))
                (.write r (freshRow r
                  (Anchor.encode { marker := 0x6B31D4E8#32, epoch := found + 1#32, base := s.base,
                                   nSlots := s.nSlots }))))))
    ∧ ∀ (s : State) (k row : Nat) (g : Word) (c : Instr) (left : Residue) (kind : FaultKind) (o : LongOp),
        row = s.base.toNat + 2 + 2 * k → s.maintFails (.formatHeader k g) (.read row) c left kind →
        s.longOp = some o → o.origin ≠ .start →
        exec c s =
          .next (({ s.portFreed.file (unitFault kind .journalUnit row (some k) s.epochOrZero) with
            epoch := none } : State).endedWith (.absent .anchorLost)
              (o.record .failed none (some kind) 0#32)).linkEnded

/-- A wipe clears the header of every slot in order and then writes the chosen anchor copy with epoch 1; a failed
write files its record and loses the journal, or fails the FORMAT it serves (R27, R68, R69). Of the two anchor copies
of a wipe or a FORMAT, the second is written when the first is confirmed, and the wipe's epoch 1 is then current; when
the second is confirmed the operation ends DONE in OPEN with an empty journal, its sequence and header mark 0 (R26,
R27, R69). A copy of the two that reads back otherwise, and any anchor copy whose write or confirming read fails for
good, files its record and ends the operation FAILED as its rule gives (R25, R27, R57, R59, R69). The moment at which
an anchor's record becomes INVALID is log entry 25; a failed FORMAT, log entry 28, and the epoch in its record, log
entry 34; the row and the slot of the record of an advance's failed wipe write, log entry 13; that the record of an
anchor has no slot, log entry 14; that the record comes before a CKPT_DROPPED of the same event, log entry 39. With each
end a latched request is settled, and a first APPLY, whether its format succeeds or fails, leaves UNCONFIGURED for
RUNNING, or for QUIESCING while PFW is asserted (R72, R82, R83, R174). -/
def Obligations.WipeAndAnchorPairEnd : Prop :=
  (∀ (s : State) (k row : Nat) (content : Row) (forFormat : Bool), row = s.base.toNat + 2 + 2 * k →
    s.maintWrites (.wipeHeader k forFormat) row content →
    (k + 1 < s.nSlots.toNat →
      exec (.memoryAttemptDone none) s =
        .next ((s.wrote row content).asksMaint (.wipeHeader (k + 1) forFormat)
          (.write (row + 2) (freshRow (row + 2) 0#128))))
    ∧ (s.nSlots.toNat ≤ k + 1 → ∀ copy r, copy = chooseAnchor s.anchorA s.anchorB →
        r = s.base.toNat + (if copy = Copy.a then 0 else 1) →
        exec (.memoryAttemptDone none) s =
          .next (({ s.wrote row content with
              anchorA := if copy = Copy.a then .invalid else s.anchorA
              anchorB := if copy = Copy.b then .invalid else s.anchorB } : State).asksMaint
            (.anchorWrite (if forFormat then .formatFirst else .wipeFirst) copy 1#32)
            (.write r (freshRow r
              (Anchor.encode { marker := 0x6B31D4E8#32, epoch := 1#32, base := s.base, nSlots := s.nSlots }))))))
    ∧ (∀ (s : State) (k row : Nat) (content : Row) (forFormat : Bool) (c : Instr) (left : Residue) (kind : FaultKind)
        (o : LongOp) (t : State), row = s.base.toNat + 2 + 2 * k →
        s.maintFails (.wipeHeader k forFormat) (.write row content) c left kind → s.longOp = some o →
        o.origin ≠ .start →
        t = (s.wroteInPart row content left).file (unitFault kind .journalUnit row (some k) s.epochOrZero) →
        (forFormat = false →
          exec c s =
            .next (({ t with slots := [], slotHeaders := [], index := [], stack := [] } : State).endedWith
              (.broken (if s.journal = .committing then .completeCommit else .rollBack))
              (o.record .failed none (some kind) s.epochOrZero)).linkEnded)
        ∧ (forFormat = true →
            exec c s =
              .next (({ t with epoch := none } : State).endedWith (.absent .anchorLost)
                (o.record .failed none (some kind) 0#32)).linkEnded))
    ∧ (∀ (s : State) (goal : AnchorGoal) (copy : Copy) (epoch : Word) (row : Nat) (content : Row),
        row = s.base.toNat + (if copy = Copy.a then 0 else 1) →
        s.maintWrites (.anchorWrite goal copy epoch) row content →
        exec (.memoryAttemptDone none) s =
          .next ((s.wrote row content).asksMaint (.anchorConfirm goal copy epoch) (.read row)))
    ∧ (∀ (s : State) (goal second : AnchorGoal) (copy : Copy) (epoch : Word) (row r : Nat) (x : Row),
        row = s.base.toNat + (if copy = Copy.a then 0 else 1) → r = s.base.toNat + (if copy = Copy.a then 1 else 0) →
        ((goal = .wipeFirst ∧ second = AnchorGoal.wipeSecond)
          ∨ (goal = .formatFirst ∧ second = AnchorGoal.formatSecond)) →
        s.maintReads (.anchorConfirm goal copy epoch) row x → rowGood row x = true →
        Anchor.decode x.data = { marker := 0x6B31D4E8#32, epoch := epoch, base := s.base, nSlots := s.nSlots } →
        exec (.memoryAttemptDone none) s =
          .next (({ s.portFreed with
              epoch := if goal = .wipeFirst then some epoch else s.epoch
              anchorA := if copy = Copy.a then .valid epoch else .invalid
              anchorB := if copy = Copy.b then .valid epoch else .invalid } : State).asksMaint
            (.anchorWrite second copy.other epoch)
            (.write r (freshRow r
              (Anchor.encode { marker := 0x6B31D4E8#32, epoch := epoch, base := s.base, nSlots := s.nSlots })))))
    ∧ (∀ (s : State) (goal : AnchorGoal) (copy : Copy) (epoch : Word) (row : Nat) (x : Row) (o : LongOp) (t : State)
        (intended : Prop), row = s.base.toNat + (if copy = Copy.a then 0 else 1) →
        s.maintReads (.anchorConfirm goal copy epoch) row x → s.longOp = some o → o.origin ≠ .start →
        (intended ↔ rowGood row x = true ∧ Anchor.decode x.data =
          { marker := 0x6B31D4E8#32, epoch := epoch, base := s.base, nSlots := s.nSlots }) →
        t = { s.portFreed with
          anchorA := if copy = Copy.a then .valid epoch else s.anchorA
          anchorB := if copy = Copy.b then .valid epoch else s.anchorB } →
        (intended → goal = .wipeSecond →
            exec (.memoryAttemptDone none) s =
              .next (({ t with
                  epoch := some epoch, slots := [], slotHeaders := [], index := [], stack := [], nextSequence := 0#32
                  exhausted := false, headerMark := 0 } : State).endedWith .opened
                (o.record .done none none epoch)).linkEnded)
        ∧ (intended → goal = .formatSecond →
            exec (.memoryAttemptDone none) s =
              .next (({ t with
                  epoch := some epoch, nextSequence := 0#32, exhausted := false, headerMark := 0 } : State).endedWith
                .opened (o.record .done none none epoch)).linkEnded)
        ∧ (¬ intended → (goal = .wipeFirst ∨ goal = .wipeSecond) →
            exec (.memoryAttemptDone none) s =
              .next (({ s.portFreed.file (unitFault .memoryFail .journalUnit row none s.epochOrZero) with
                  slots := [], slotHeaders := [], index := [], stack := [] } : State).endedWith
                (.broken (if s.journal = .committing then .completeCommit else .rollBack))
                (o.record .failed none (some .memoryFail) s.epochOrZero)).linkEnded)
        ∧ (¬ intended → (goal = .formatFirst ∨ goal = .formatSecond) →
            exec (.memoryAttemptDone none) s =
              .next (({ s.portFreed.file (unitFault .memoryFail .journalUnit row none s.epochOrZero) with
                  epoch := none } : State).endedWith (.absent .anchorLost)
                (o.record .failed none (some .memoryFail) 0#32)).linkEnded))
    ∧ (∀ (s u t : State) (task : MaintTask) (op : RowOp) (goal : AnchorGoal) (copy : Copy) (epoch : Word) (row : Nat)
        (content : Row) (c : Instr) (left : Residue) (kind : FaultKind) (o : LongOp),
        row = s.base.toNat + (if copy = Copy.a then 0 else 1) → s.maintFails task op c left kind →
        ((task = .anchorWrite goal copy epoch ∧ op = .write row content ∧ u = s.wroteInPart row content left)
          ∨ (task = .anchorConfirm goal copy epoch ∧ op = .read row ∧ u = s.portFreed)) →
        t = u.file (unitFault kind .journalUnit row none s.epochOrZero) → s.longOp = some o → o.origin ≠ .start →
        (goal = .advance →
          exec c s =
            .next (t.endedWith (.broken (if s.journal = .committing then .completeCommit else .rollBack))
              (o.record .failed none (some kind) s.epochOrZero)).linkEnded)
        ∧ ((goal = .wipeFirst ∨ goal = .wipeSecond) →
            exec c s =
              .next (({ t with slots := [], slotHeaders := [], index := [], stack := [] } : State).endedWith
                (.broken (if s.journal = .committing then .completeCommit else .rollBack))
                (o.record .failed none (some kind) s.epochOrZero)).linkEnded)
        ∧ ((goal = .formatFirst ∨ goal = .formatSecond) →
            exec c s =
              .next (({ t with epoch := none } : State).endedWith (.absent .anchorLost)
                (o.record .failed none (some kind) 0#32)).linkEnded))
    ∧ ∀ (s : State) (copy : Copy) (epoch : Word) (row : Nat) (x : Row) (o : LongOp) (intended : Prop),
        row = s.base.toNat + (if copy = Copy.a then 0 else 1) →
        s.maintReads (.anchorConfirm .formatSecond copy epoch) row x → s.longOp = some o → o.origin ≠ .start →
        s.operating = .unconfigured → s.active ≠ none → s.ckptLatch = false → ¬ s.headParked →
        (intended ↔ rowGood row x = true ∧ Anchor.decode x.data =
          { marker := 0x6B31D4E8#32, epoch := epoch, base := s.base, nSlots := s.nSlots }) →
        (intended →
          exec (.memoryAttemptDone none) s =
            .next { ({ s.portFreed with
                anchorA := if copy = Copy.a then .valid epoch else s.anchorA
                anchorB := if copy = Copy.b then .valid epoch else s.anchorB
                epoch := some epoch, nextSequence := 0#32, exhausted := false, headerMark := 0 } : State).endedWith
                .opened (o.record .done none none epoch) with
              operating := if s.pfw then .quiescing else .running })
        ∧ (¬ intended →
            exec (.memoryAttemptDone none) s =
              .next { ({ s.portFreed.file (unitFault .memoryFail .journalUnit row none s.epochOrZero) with
                  epoch := none } : State).endedWith (.absent .anchorLost)
                  (o.record .failed none (some .memoryFail) 0#32) with
                operating := if s.pfw then .quiescing else .running })

/-- DRAIN_END executes an APPLY: its four checks are made in order, and the first that applies ends it REFUSED with
its reason and nothing changed; otherwise the slot 0 clear or the closing clear of the target copy begins (R169, R170,
R171). DRAIN_END as an explicit step is log entry 11; that the copy's validity record becomes INVALID when its closing
clear is asked for, even where it waits at the arbiter, log entry 25. -/
def Obligations.ApplyMakesItsChecks : Prop :=
  ∀ (s : State) (o : LongOp), s.drainEnded o → o.kind = .apply → o.origin ≠ .start →
    (∀ reason,
      (reason = .recordsPresent ∧ s.journal = JournalState.draining ∧ s.slots ≠ [])
        ∨ (reason = .frozen ∧ (s.journal ≠ .draining ∨ s.slots = [])
            ∧ ((∃ r : Fin 16, s.freeze[r] = true) ∨ s.deferredFreeze ≠ none))
        ∨ (reason = .invalidConfig ∧ (s.journal ≠ .draining ∨ s.slots = []) ∧ (∀ r : Fin 16, s.freeze[r] = false)
            ∧ s.deferredFreeze = none ∧ s.staging.valid = false)
        ∨ (reason = .generationExhausted ∧ (s.journal ≠ .draining ∨ s.slots = [])
            ∧ (∀ r : Fin 16, s.freeze[r] = false) ∧ s.deferredFreeze = none ∧ s.staging.valid = true
            ∧ ∃ c, s.active = some c ∧ c.generation = 0xFFFFFFFF#32) →
      exec .drainEnd s =
        .next (s.endedWith (if s.journal = JournalState.draining then .opened else s.journal)
          (o.record .refused (some reason) none s.epochOrZero)).linkEnded)
    ∧ ((s.journal ≠ .draining ∨ s.slots = []) → (∀ r : Fin 16, s.freeze[r] = false) → s.deferredFreeze = none →
        s.staging.valid = true → ∀ c, s.active = some c → c.generation ≠ 0xFFFFFFFF#32 →
        (c.nSlots ≠ 0#16 → (c.nSlots ≠ s.staging.nSlots ∨ c.base ≠ s.staging.base) →
          exec .drainEnd s =
            .next (({ s with
                longOp := some { o with phase := .executing }
                maint := some .slotZeroClear } : State).requestPort .maint
              (.write (c.base.toNat + 2) (freshRow (c.base.toNat + 2) 0#128))))
        ∧ ((c.nSlots = 0#16 ∨ (c.nSlots = s.staging.nSlots ∧ c.base = s.staging.base)) →
            (s.designation = some .a →
              exec .drainEnd s =
                .next (({ s with
                    longOp := some { o with phase := .executing }
                    copyB := .invalid
                    maint := some (.copyClear .b) } : State).requestPort .maint (.write 31 (freshRow 31 0#128))))
            ∧ (s.designation = some .b →
                exec .drainEnd s =
                  .next (({ s with
                      longOp := some { o with phase := .executing }
                      copyA := .invalid
                      maint := some (.copyClear .a) } : State).requestPort .maint
                    (.write 15 (freshRow 15 0#128))))))
    ∧ ((s.journal ≠ .draining ∨ s.slots = []) → (∀ r : Fin 16, s.freeze[r] = false) → s.deferredFreeze = none →
        s.staging.valid = true → s.active = none →
        exec .drainEnd s =
          .next (({ s with
              longOp := some { o with phase := .executing }
              copyA := .invalid
              maint := some (.copyClear .a) } : State).requestPort .maint (.write 15 (freshRow 15 0#128))))

/-- The copy write of an APPLY, each row operation after the one before it: the closing clear after the slot 0 clear,
the fifteen body rows in order, the closing write, and the sixteen confirming reads (R170, R201). A copy read back
VALID and exactly as intended becomes VALID; the activation is then due, or in a first APPLY copy B follows copy A
(R171, R172). Another copy, or a failed row operation, files its record, and the APPLY ends FAILED with the journal as
it was (R170). The record of a failed slot 0 clear has no slot: the model's choice, log entry 31. That a copy's
validity record becomes INVALID when its closing clear is asked for is log entry 25; the confirmation on the decoded
record, and the row named when it fails, log entry 19; that the record comes before a CKPT_DROPPED of the same event,
log entry 39. -/
def Obligations.CopyWriteGoesRowByRow : Prop :=
  (∀ (s : State) (content : Row) (copy other : Copy) (i first : Nat) (generation : Word) (r : ConfigRecord),
    ((∃ c, s.active = some c ∧ generation = c.generation + 1#32) ∨ (s.active = none ∧ generation = 1#32)) →
    r = { s.staging with signature := 0x3D94A07C#32, generation := generation } →
    first = (if copy = Copy.a then 0 else 16) → other = (if copy = Copy.a then .b else .a) →
    (s.maintWrites .slotZeroClear (s.base.toNat + 2) content → s.designation = some other →
      exec (.memoryAttemptDone none) s =
        .next (({ s.wrote (s.base.toNat + 2) content with
            copyA := if copy = Copy.a then .invalid else s.copyA
            copyB := if copy = Copy.b then .invalid else s.copyB } : State).asksMaint (.copyClear copy)
          (.write (first + 15) (freshRow (first + 15) 0#128))))
    ∧ (s.maintWrites (.copyClear copy) (first + 15) content →
        exec (.memoryAttemptDone none) s =
          .next ((s.wrote (first + 15) content).asksMaint (.copyBody copy 0)
            (.write first (freshRow first (configRowData r 0)))))
    ∧ (s.maintWrites (.copyBody copy i) (first + i) content → i < 14 →
        exec (.memoryAttemptDone none) s =
          .next ((s.wrote (first + i) content).asksMaint (.copyBody copy (i + 1))
            (.write (first + (i + 1)) (freshRow (first + (i + 1)) (configRowData r (i + 1))))))
    ∧ (s.maintWrites (.copyBody copy 14) (first + 14) content →
        exec (.memoryAttemptDone none) s =
          .next ((s.wrote (first + 14) content).asksMaint (.copyClose copy)
            (.write (first + 15) (freshRow (first + 15) (configRowData r 15)))))
    ∧ (s.maintWrites (.copyClose copy) (first + 15) content →
        exec (.memoryAttemptDone none) s =
          .next ((s.wrote (first + 15) content).asksMaint (.copyConfirm copy 0 []) (.read first))))
    ∧ (∀ (s : State) (copy : Copy) (i first : Nat) (rows : List Row) (x : Row) (generation : Word) (r : ConfigRecord)
        (o : LongOp) (confirmed : Prop),
        ((∃ c, s.active = some c ∧ generation = c.generation + 1#32) ∨ (s.active = none ∧ generation = 1#32)) →
        r = { s.staging with signature := 0x3D94A07C#32, generation := generation } →
        first = (if copy = Copy.a then 0 else 16) → s.maintReads (.copyConfirm copy i rows) (first + i) x →
        s.longOp = some o → o.origin ≠ .start →
        (confirmed ↔ (∀ k y, (rows ++ [x])[k]? = some y → rowGood (first + k) y = true)
          ∧ classifyCopy ((rows ++ [x]).map Row.data) = some r) →
        (i < 15 →
          exec (.memoryAttemptDone none) s =
            .next (s.portFreed.asksMaint (.copyConfirm copy (i + 1) (rows ++ [x])) (.read (first + (i + 1)))))
        ∧ (i = 15 → confirmed → (s.active ≠ none ∨ copy = .b) →
            exec (.memoryAttemptDone none) s =
              .next { s.portFreed with
                copyA := if copy = Copy.a then .valid generation else s.copyA
                copyB := if copy = Copy.b then .valid generation else s.copyB
                maint := none, activationDue := true })
        ∧ (i = 15 → confirmed → s.active = none → copy = .a →
            exec (.memoryAttemptDone none) s =
              .next (({ s.portFreed with copyA := .valid generation, copyB := .invalid } : State).asksMaint
                (.copyClear .b) (.write 31 (freshRow 31 0#128))))
        ∧ (i = 15 → ¬ confirmed → ∀ k y, (rows ++ [x])[k]? = some y → y ≠ freshRow (first + k) (configRowData r k) →
            (∀ m z, m < k → (rows ++ [x])[m]? = some z → z = freshRow (first + m) (configRowData r m)) →
            exec (.memoryAttemptDone none) s =
              .next ((s.portFreed.file
                  (unitFault .memoryFail .configurationUnit (first + k) none s.epochOrZero)).endedWith
                (if s.journal = JournalState.draining then .opened else s.journal)
                (o.record .failed none (some .memoryFail) s.epochOrZero)).linkEnded))
    ∧ ∀ (s : State) (task : MaintTask) (op : RowOp) (copy : Copy) (i first row : Nat) (rows : List Row) (content : Row)
        (c : Instr) (left : Residue) (kind : FaultKind) (o : LongOp) (t : State),
        first = (if copy = Copy.a then 0 else 16) →
        ((task = .slotZeroClear ∧ row = s.base.toNat + 2 ∧ op = .write row content)
          ∨ ((task = .copyClear copy ∨ task = .copyClose copy) ∧ row = first + 15 ∧ op = .write row content)
          ∨ (task = .copyBody copy i ∧ row = first + i ∧ op = .write row content)
          ∨ (task = .copyConfirm copy i rows ∧ row = first + i ∧ op = .read row)) →
        s.maintFails task op c left kind → s.longOp = some o → o.origin ≠ .start →
        t = (match op with
          | .read _ => s.portFreed
          | .write _ _ => s.wroteInPart row content left) →
        exec c s =
          .next ((t.file (unitFault kind .configurationUnit row none s.epochOrZero)).endedWith
            (if s.journal = JournalState.draining then .opened else s.journal)
            (o.record .failed none (some kind) s.epochOrZero)).linkEnded

/-- Each of the part's own events changes nothing before its condition holds: DRAIN_END before the drain has ended
(R50); APPLY_ACTIVATION with none due or with a job in progress (R172); FREEZE_DEFERRED_DECISION with none deferred, or
while a write job of its region is in its write stage (R106); QUIESCED_ENTRY before the settling is complete (R85);
HELD_WRITE_ACCEPT without a held write, with acceptance closed, or without room (R114, R115); HOLD_TIMER_EXPIRY with no
request timed (R122); JOB_TAKE with a job in progress, with an activation waiting, or with no candidate offered (R131);
and a timer or an answer of the memory port outside its port state (R149, R150). The explicit step is the model's form,
log entries 5 and 11. -/
def Obligations.EventsWaitForTheirConditions : Prop :=
  ∀ s : State,
    ((∀ o, ¬ s.drainEnded o) → exec .drainEnd s = .next s)
    ∧ (s.activationDue = false ∨ s.job ≠ none ∨ s.inReset = true → exec .applyActivation s = .next s)
    ∧ ((s.deferredFreeze = none
          ∨ ∃ j, s.job = some j ∧ j.request.isRead = false ∧ s.deferredFreeze = some j.region
            ∧ ((∃ i, j.phase = .writing i) ∨ ∃ i slot sequence step, j.phase = .appending i slot sequence step)) →
        exec .freezeDeferredDecision s = .next s)
    ∧ (s.inReset = true ∨ s.operating ≠ .quiescing ∨ s.queue ≠ [] ∨ s.pendingRead ≠ none ∨ s.job ≠ none →
        exec .quiescedEntry s = .next s)
    ∧ (((∀ address beats, s.held ≠ some (.write address beats)) ∨ s.inReset = true
          ∨ (s.operating ≠ .running ∧ (s.operating ≠ .starting ∨ s.active = none))
          ∨ ∃ c, s.active = some c
            ∧ ((c.ack = .posted ∧ 8 ≤ s.queue.length) ∨ (c.ack = .completed ∧ s.queue ≠ []))) →
        exec .heldWriteAccept s = .next s)
    ∧ ((s.inReset = true ∨ (∀ c, s.active = some c → c.holdLimit = 0#16)
          ∨ (s.held = none ∧ (∀ p, s.pendingRead = some p → p.taken = true)
            ∧ ∀ e, s.queue.head? = some e → e.mark = .posted ∨ e.timed = false)) →
        exec .holdTimerExpiry s = .next s)
    ∧ ((s.inReset = true ∨ s.job ≠ none ∨ s.activationDue = true
          ∨ ((∀ p, s.pendingRead = some p → p.taken = true ∨ s.readHeld = true
                ∨ ∃ e ∈ s.queue, ∃ row ∈ rowsOf p.address p.beats, row ∈ rowsOf e.address e.beats.length)
            ∧ ∀ e, s.queue.head? = some e → e.state ≠ .notStarted ∨ s.headHeld = true)) →
        exec .jobTake s = .next s)
    ∧ ((∀ f, s.port ≠ .inFlight f) → exec .attemptTimerExpiry s = .next s
        ∧ (∀ delivered, exec (.memoryAttemptDone delivered) s = .next s)
        ∧ ∀ left, exec (.memoryAttemptFail left) s = .next s)
    ∧ ((∀ f, s.port ≠ .aborting f) → ∀ left, exec (.abortAcknowledge left) s = .next s)

/-- APPLY_ACTIVATION: when no job is in progress, the staged record with its signature and new generation becomes the
active configuration and the staging record, with its alert mask, at one moment; no row is written and no freeze flag
changes (R100, R166, R172). The generation is one above the active one and the designation the other copy; in a first
APPLY the generation is 1 and the designation A (R170, R171). The journal step follows at once (R173): with N_S 0 the
journal is ABSENT with NOT_CONFIGURED, its epoch, anchors and tables dropped, and the APPLY ends DONE, a latched
request is settled, and a first APPLY leaves UNCONFIGURED (R72, R82, R83, R174); in OPEN with the area unchanged it
ends DONE in OPEN, the journal kept; otherwise both anchor records become INVALID, and the format of the new area
begins. APPLY_ACTIVATION as an explicit step is log entry 11, and that it accepts no held write, log entry 38. -/
def Obligations.ActivationInstallsTheStagedRecord : Prop :=
  (∀ (s : State) (generation : Word), s.inReset = false → s.activationDue = true → s.job = none →
    ((∃ c, s.active = some c ∧ generation = c.generation + 1#32)
      ∨ (s.active = none ∧ s.designation = none ∧ generation = 1#32)) →
    ∃ t, exec .applyActivation s = .next t
      ∧ t.active = some { s.staging with signature := 0x3D94A07C#32, generation := generation }
      ∧ t.staging = { s.staging with signature := 0x3D94A07C#32, generation := generation }
      ∧ (s.designation = some .a → t.designation = some .b) ∧ (s.designation = some .b → t.designation = some .a)
      ∧ (s.active = none → t.designation = some .a)
      ∧ t.alertMask = s.staging.alertMask ∧ t.configDegraded = false ∧ t.activationDue = false
      ∧ t.mem = s.mem ∧ t.freeze = s.freeze ∧ t.pendingRead = s.pendingRead ∧ t.held = s.held
      ∧ t.copyA = s.copyA ∧ t.copyB = s.copyB)
    ∧ ∀ (s t : State) (r : ConfigRecord) (o : LongOp) (copy : Copy), s.inReset = false → s.activationDue = true →
        s.job = none → s.longOp = some o → o.origin ≠ .start →
        ((s.designation = some .a ∧ copy = .b) ∨ (s.designation = some .b ∧ copy = .a)
          ∨ (s.designation = none ∧ copy = .a)) →
        r = { s.staging with
          signature := 0x3D94A07C#32
          generation := match s.active with | some c => c.generation + 1#32 | none => 1#32 } →
        t = { s with
          active := some r, staging := r, designation := some copy, alertMask := r.alertMask, configDegraded := false
          activationDue := false } →
        (∀ u : State, r.nSlots = 0#16 →
          u = { t with
            epoch := none, anchorA := .invalid, anchorB := .invalid, slots := []
            slotHeaders := [], index := [], stack := []
            nextSequence := 0#32, exhausted := false, headerMark := 0 }.endedWith (.absent .notConfigured)
              (o.record .done none none 0#32) →
          exec .applyActivation s = .next u.linkEnded
          ∧ (s.operating = .unconfigured → s.ckptLatch = false → ¬ s.headParked →
              exec .applyActivation s = .next { u with operating := if s.pfw then .quiescing else .running }))
        ∧ (∀ c, r.nSlots ≠ 0#16 → s.journal = .draining → s.active = some c → c.base = r.base →
            c.nSlots = r.nSlots →
            exec .applyActivation s =
              .next (t.endedWith .opened (o.record .done none none s.epochOrZero)).linkEnded)
        ∧ (r.nSlots ≠ 0#16 →
            (s.journal ≠ .draining ∨ ∀ c, s.active = some c → ¬ (c.base = r.base ∧ c.nSlots = r.nSlots)) →
            exec .applyActivation s =
              .next (({ t with
                  anchorA := .invalid, anchorB := .invalid, journal := .formatting, readHeld := false
                  headHeld := false, slots := [], slotHeaders := [], index := [], stack := [] } : State).asksMaint
                (.formatAnchor .a s.epochOrZero) (.read r.base.toNat)))

/-! ## Freezing, power-fail and reset -/

/-- FREEZE is decided in the order of R105: INVALID_REGION, STATE, RECORDS_PRESENT, and otherwise OK with the flag
set, or deferred with its response PENDING while a write job of the region is in its write stage (R106).
FREEZE_DEFERRED_DECISION, when the write job has left its write stage: RECORDS_PRESENT when its JOURNALED region has
records by now, and the flag set otherwise; a response still awaited becomes READY (R106, R179). An entry that a first
APPLY's activation has put in force is not OFF, though the part is still UNCONFIGURED: the model's choice, log entry
30. -/
def Obligations.FreezeIsDecided : Prop :=
  (∀ (s : State) (region : Byte), s.inReset = false →
    (16 ≤ region.toNat → exec (.freeze region) s = .next (s.responded 3 0x03#8 [0x03#8]))
    ∧ ∀ i : Fin 16, region.toNat = i.val →
      (((s.regions[i]).mode = .off ∨ (s.regions[i]).mode = .readOnly) →
        exec (.freeze region) s = .next (s.responded 3 0x03#8 [0x03#8]))
      ∧ (((s.regions[i]).mode = .plain ∨ (s.regions[i]).mode = .journaled) →
          (((∃ o, s.longOp = some o ∧ o.kind = .apply ∧ o.phase = .executing)
              ∨ ((s.regions[i]).mode = .journaled ∧ s.journal = .scanning)) →
            exec (.freeze region) s = .next (s.responded 3 0x03#8 [0x01#8]))
          ∧ ((∀ o, s.longOp = some o → ¬ (o.kind = .apply ∧ o.phase = .executing)) →
              ((s.regions[i]).mode = .journaled → s.journal ≠ .scanning) →
              (((s.regions[i]).mode = .journaled ∧ s.recordsInRegion s.regions[i] = true) →
                exec (.freeze region) s = .next (s.responded 3 0x03#8 [0x06#8]))
              ∧ (((s.regions[i]).mode = .plain ∨ s.recordsInRegion s.regions[i] = false) →
                  (s.writeStageOf i = false ∨ s.freeze[i] = true →
                    exec (.freeze region) s = .next ({ s with freeze := s.freeze.set i true }.responded 3 0x00#8 []))
                  ∧ (s.writeStageOf i = true → s.freeze[i] = false →
                      exec (.freeze region) s =
                        .next { s with
                          deferredFreeze := some i, response := .pending
                          linkOut := [0xC3#8, 0x00#8, 0x00#8] })))))
    ∧ (∀ (s : State) (i : Fin 16), s.deferredFreeze = some i → s.writeStageOf i = false →
    (((s.regions[i]).mode = .journaled ∧ s.recordsInRegion s.regions[i] = true) →
      exec .freezeDeferredDecision s =
        .next { s with
          deferredFreeze := none
          response := if s.response = .pending then .ready [0x03#8, 0x06#8, frameCrc [0x03#8, 0x06#8]]
            else s.response })
    ∧ (((s.regions[i]).mode ≠ .journaled ∨ s.recordsInRegion s.regions[i] = false) →
        exec .freezeDeferredDecision s =
          .next { s with
            deferredFreeze := none, freeze := s.freeze.set i true
            response := if s.response = .pending then .ready [0x00#8, frameCrc [0x00#8]] else s.response }))

/-- PFW_ASSERT in RUNNING enters QUIESCING, and drops a head in space-wait with every entry behind it under one
WRITES_DROPPED_AT_POWER_FAIL record; in any other state only the level is taken (R81, R83, R84; the posted flag from
the head's mark is log entry 15). QUIESCED_ENTRY when the queue is empty, no read is pending and no job is in
progress, as a step of its own (log entry 11); and PFW_DEASSERT, which enters RUNNING and takes a held request in, a
write under the acknowledgement mode in force (R85, R114, R115). -/
def Obligations.PowerFailQuiescesAndReturns : Prop :=
  (∀ s : State,
    (s.inReset = false → s.operating = .running → ¬ s.headParked →
      exec .pfwAssert s = .next { s with pfw := true, operating := .quiescing })
    ∧ (∀ h rest, s.inReset = false → s.operating = .running → s.queue = h :: rest → h.state = .spaceWait →
        exec .pfwAssert s =
          .next { s.file
              { kind := .writesDroppedAtPowerFail, source := .startUnit, address := some h.address
                row := some (h.address.toNat / 16), slot := some (rest.length + 1), epoch := s.epochOrZero
                posted := h.mark == .posted, partialDone := false } with
            pfw := true, operating := .quiescing, queue := [], parked := none, headHeld := false
            frontResponse := if h.mark = .posted then s.frontResponse else some { okay := false, beats := [] } })
    ∧ (s.inReset = true ∨ s.operating ≠ .running → exec .pfwAssert s = .next { s with pfw := true }))
    ∧ (∀ s : State, s.inReset = false →
    (s.operating = .quiescing → s.queue = [] → s.pendingRead = none → s.job = none →
      exec .quiescedEntry s = .next { s with operating := .quiesced })
    ∧ ((s.operating = .quiescing ∨ s.operating = .quiesced) → s.held = none →
        exec .pfwDeassert s = .next { s with pfw := false, operating := .running })
    ∧ (∀ address beats, (s.operating = .quiescing ∨ s.operating = .quiesced) → s.held = some (.read address beats) →
        burstAcceptable address beats = true →
        exec .pfwDeassert s =
          .next { s with
            pfw := false, operating := .running, held := none, readHeld := false
            pendingRead := some { address := address, beats := beats, taken := false } })
    ∧ (∀ address beats, (s.operating = .quiescing ∨ s.operating = .quiesced) → s.held = some (.write address beats) →
        burstAcceptable address beats.length = true →
        (s.queueHasRoom = false → exec .pfwDeassert s = .next { s with pfw := false, operating := .running })
        ∧ (s.queueHasRoom = true → s.ackMode = .posted →
            exec .pfwDeassert s =
              .next { s with
                pfw := false, operating := .running, held := none
                queue := s.queue ++ [{ address := address, beats := beats, number := s.nextAcceptance,
                                       mark := .posted, state := .notStarted, timed := false }]
                nextAcceptance := s.nextAcceptance + 1#32
                frontResponse := some { okay := true, beats := [] } })
        ∧ (s.queueHasRoom = true → s.ackMode = .completed →
            s.queue = []
            ∧ exec .pfwDeassert s =
              .next { s with
                pfw := false, operating := .running, held := none
                queue := [{ address := address, beats := beats, number := s.nextAcceptance,
                            mark := .completed, state := .notStarted, timed := true }]
                nextAcceptance := s.nextAcceptance + 1#32 }))
    ∧ (s.operating ≠ .quiescing → s.operating ≠ .quiesced → exec .pfwDeassert s = .next { s with pfw := false }))

/-- The values of State.reset: those of the Start Unit in reset (R74), the Journal Unit (section 1.11, R86), the Region
Map (R100, R104), the Front Port Unit (R129), the Row Engine (R86), the Memory Port Unit (R159), the Configuration Unit
(R163, R166), the Control Link Unit (R191) and the Status and Fault Unit (R192, R195, R196). RST_ASSERT puts every block
at its start values, whatever was under way, and leaves the memory device with at most
the row of a write in flight changed (R74, R86, R159); START leaves reset with CKPT's level as the reference and reads
row 0 on MAINT under the start timings (R75, R154, R164, R187). The kept levels of PFW and CKPT are log entry 6. The
kept counter of free choices is log entry 2. -/
def Obligations.ResetAndStart : Prop :=
  (State.reset.inReset = true ∧ State.reset.operating = .starting ∧ State.reset.alertAsserted = false)
    ∧ (State.reset.journal = .absent .notConfigured ∧ State.reset.epoch = none ∧ State.reset.anchorA = .invalid
      ∧ State.reset.anchorB = .invalid ∧ State.reset.slots = [] ∧ State.reset.slotHeaders = [] ∧ State.reset.index = []
      ∧ State.reset.tail = 0
      ∧ State.reset.nextSequence = 0#32 ∧ State.reset.exhausted = false ∧ State.reset.headerMark = 0
      ∧ State.reset.recoveryMark = none
      ∧ State.reset.stack = [] ∧ State.reset.longOp = none ∧ State.reset.maint = none)
    ∧ ((∀ i : Fin 16, (State.reset.regions[i]).mode = .off) ∧ (∀ i : Fin 16, State.reset.freeze[i] = false)
      ∧ State.reset.deferredFreeze = none ∧ State.reset.activationDue = false)
    ∧ (State.reset.held = none ∧ State.reset.pendingRead = none ∧ State.reset.queue = []
      ∧ State.reset.nextAcceptance = 0#32 ∧ State.reset.mark = none ∧ State.reset.timedRequest = none
      ∧ State.reset.job = none ∧ State.reset.parked = none ∧ State.reset.readHeld = false
      ∧ State.reset.headHeld = false)
    ∧ (State.reset.port = .idle ∧ State.reset.waitFront = none ∧ State.reset.waitMaint = none
      ∧ State.reset.lastServed = .front ∧ State.reset.retryCounter = 0#8 ∧ State.reset.timeoutInForce = 64#8
      ∧ State.reset.retriesInForce = 3#2)
    ∧ (State.reset.active = none ∧ State.reset.copyA = .invalid ∧ State.reset.copyB = .invalid
      ∧ State.reset.designation = none ∧ State.reset.configDegraded = false
      ∧ ∀ identifier v, fieldValue State.reset.staging identifier = some v → v = 0#32)
    ∧ (State.reset.response = .none ∧ State.reset.completion = none ∧ State.reset.ckptLatch = false)
    ∧ (State.reset.log = [] ∧ State.reset.dropped = 0#8 ∧ State.reset.rawConditions = 0#6
      ∧ State.reset.alertMask = 0#6)
    ∧ (∀ (s : State) (left : Residue), ∃ m,
    exec (.rstAssert left) s =
      .next { State.reset with
        pending := s.pending, pfw := s.pfw, ckptHigh := s.ckptHigh, freeCount := s.freeCount, mem := m }
    ∧ (s.port = .idle → m = s.mem)
    ∧ (∀ f, (s.port = .inFlight f ∨ s.port = .aborting f) →
        (∀ row, f.op = .read row → m = s.mem)
        ∧ ∀ row content, f.op = .write row content →
            m = s.mem.write row (residueRow row (s.mem.read row) content left)))
    ∧ ∀ (s : State) (level : Bool), s.inReset = true → s.port = .idle → s.waitFront = none → s.active = none →
        exec (.start level) s =
          .next { s with
            inReset := false, ckptHigh := level, maint := some (.loadRow .a 0 [] none), lastServed := .maint
            port := .inFlight
              { requester := .maint, op := .read 0, attempt := 1, timeout := 64#8, retries := 3#2, last := none } }

/-! ## The CKPT line -/

/-- CKPT_EDGE, as the table of R188 gives: latched in STARTING and while a long operation is in progress, dropped with
CKPT_DROPPED in UNCONFIGURED and in BROKEN or ABSENT, and otherwise a COMMIT of origin LINE taken at once, which
carries a head in space-wait (R48, R127, R188, R190). That the level is held as high after an edge, whatever it was, is
log entry 21. -/
def Obligations.CheckpointEdgeIsDecided : Prop :=
  ∀ s : State, s.inReset = false →
    (s.operating = .starting → exec .ckptEdge s = .next { s with ckptHigh := true, ckptLatch := true })
    ∧ (s.operating ≠ .unconfigured → s.longOp ≠ none →
        exec .ckptEdge s = .next { s with ckptHigh := true, ckptLatch := true })
    ∧ ((s.operating = .unconfigured
          ∨ (s.operating ≠ .starting ∧ s.longOp = none ∧ s.journal ≠ .opened)) →
        exec .ckptEdge s =
          .next { s.file
              { kind := .ckptDropped, source := .controlLinkUnit, address := none, row := none, slot := none
                epoch := s.epochOrZero, posted := false, partialDone := false } with ckptHigh := true })
    ∧ (s.operating ≠ .starting → s.operating ≠ .unconfigured → s.longOp = none → s.journal = .opened →
        ¬ s.headParked →
        exec .ckptEdge s =
          .next { s with
            ckptHigh := true, journal := .draining, readHeld := false, headHeld := false
            longOp := some (LongOp.created .commit .line false), mark := some (s.nextAcceptance - 1#32) })
    ∧ (∀ h rest, s.operating ≠ .starting → s.operating ≠ .unconfigured → s.longOp = none → s.journal = .opened →
        s.queue = h :: rest → h.state = .spaceWait → (∀ e ∈ s.queue, 1 ≤ (s.nextAcceptance - e.number).toNat) →
        exec .ckptEdge s =
          .next { s with
            ckptHigh := true, journal := .draining, readHeld := false, headHeld := false, parked := none
            longOp := some { LongOp.created .commit .line false with carried := s.queue.length }
            queue := { h with state := .notStarted } :: rest, mark := some (h.number - 1#32) })

/-! ## The control link -/

/-- RESPONSE_READ shifts out the lead byte, then the held frame, or NO_RESPONSE when none is READY, and 00h after the
frame's end; it consumes nothing (R176, R179). No command frame is served in reset (R74). -/
def Obligations.ReadTransfersConsumeNothing : Prop :=
  (∀ (s : State) (clocked : Nat), s.inReset = false → 1 ≤ clocked →
    (∀ frame, s.response = .ready frame →
      exec (.responseRead clocked) s =
        .next { s with
          linkOut := 0xC3#8 :: (frame ++ List.replicate (clocked - 1) 0x00#8).take (clocked - 1) })
    ∧ ((s.response = .none ∨ s.response = .pending) →
        exec (.responseRead clocked) s =
          .next { s with
            linkOut := 0xC3#8 ::
              ([0x06#8, frameCrc [0x06#8]] ++ List.replicate (clocked - 1) 0x00#8).take (clocked - 1) }))
    ∧ ∀ (s : State) (c : Instr) (body : List Byte), s.inReset = true → commandBody c = some body → exec c s = .next s

/-- STATUS is answered OK with 45 bytes read at one moment, and changes no other state; its fields stand where R203
places them (R198, R203), and the bits that R203 gives to no field are 0 (log entry 40). IDENT is answered OK with the
vendor code 4E17h, the part code 2240h and the revision 01h, and changes no other state (R199, R202). -/
def Obligations.SnapshotsReportTheState : Prop :=
  ((∀ s : State, s.inReset = false → exec .status s = .next (s.responded 2 0x00#8 s.statusPayload))
    ∧ ∀ s : State,
      s.statusPayload.length = 45
      ∧ s.statusPayload[0]? = some (match s.operating with
          | .starting => 0#8 | .unconfigured => 1#8 | .running => 2#8 | .quiescing => 3#8 | .quiesced => 4#8)
      ∧ s.statusPayload[1]? = some (match s.journal with
          | .absent _ => 0#8 | .scanning => 1#8 | .opened => 2#8 | .draining => 3#8 | .committing => 4#8
          | .rollingBack => 5#8 | .undoing => 6#8 | .formatting => 7#8 | .broken _ => 8#8)
      ∧ s.statusPayload[2]? = some (match s.journal with
          | .absent .notConfigured => 0x10#8 | .absent .anchorLost => 0x20#8 | .absent .anchorMismatch => 0x30#8
          | .broken .rollBack => 0x01#8 | .broken .completeCommit => 0x02#8 | _ => 0x00#8)
      ∧ (s.statusPayload.drop 3).take 4 = bytes4 (s.epoch.getD 0#32)
      ∧ (s.statusPayload.drop 7).take 2 = bytes2 (BitVec.ofNat 16 s.slots.length)
      ∧ (s.statusPayload.drop 9).take 2 = bytes2 ((s.active.map ConfigRecord.nSlots).getD 0#16)
      ∧ s.statusPayload[11]? = some (BitVec.ofNat 8 s.stack.length)
      ∧ (s.queue.length ≤ 8 → s.statusPayload[12]? =
          some (BitVec.ofNat 8 (s.queue.length + if s.pendingRead.isSome then 128 else 0)))
      ∧ s.statusPayload[13]? = some (BitVec.ofNat 8 s.log.length)
      ∧ s.statusPayload[14]? = some s.dropped
      ∧ s.statusPayload[15]? = some (s.rawConditions.setWidth 8)
      ∧ s.statusPayload[16]? = some (s.alertMask.setWidth 8)
      ∧ s.statusPayload[17]? = some ((s.rawConditions &&& ~~~ s.alertMask).setWidth 8)
      ∧ (s.statusPayload.drop 18).take 4 = bytes4 ((s.active.map ConfigRecord.generation).getD 0#32)
      ∧ s.statusPayload[22]? = some (BitVec.ofNat 8 ((if s.copyA = CopyRecord.invalid then 0 else 1)
          + (if s.copyB = CopyRecord.invalid then 0 else 2)
          + match s.designation with | none => 0 | some Copy.a => 4 | some Copy.b => 8))
      ∧ (s.statusPayload.drop 23).take 4 = bytes4 (match s.copyA with | .valid g => g | .invalid => 0#32)
      ∧ (s.statusPayload.drop 27).take 4 = bytes4 (match s.copyB with | .valid g => g | .invalid => 0#32)
      ∧ s.statusPayload[31]? = some (BitVec.ofNat 8
          ((match s.anchorA with | .invalid => 0 | .valid _ => 1 | .mismatched => 2)
            + match s.anchorB with | .invalid => 0 | .valid _ => 4 | .mismatched => 8))
      ∧ (s.statusPayload.drop 32).take 4 = bytes4 (match s.anchorA with | .valid e => e | _ => 0#32)
      ∧ (s.statusPayload.drop 36).take 4 = bytes4 (match s.anchorB with | .valid e => e | _ => 0#32)
      ∧ s.statusPayload[40]? = some s.retryCounter
      ∧ s.statusPayload[41]? = some (if s.ckptLatch then 1#8 else 0#8)
      ∧ s.statusPayload[42]? = some (match s.longOp.map LongOp.kind with
          | none => 0x00#8 | some .save => 0x40#8 | some .release => 0x41#8 | some .undo => 0x42#8
          | some .commit => 0x43#8 | some .rollback => 0x44#8 | some .format => 0x45#8 | some .resume => 0x46#8
          | some .apply => 0x47#8)
      ∧ s.statusPayload[43]? = some (match s.longOp.map LongOp.origin with
          | none => 0#8 | some .link => 1#8 | some .line => 2#8 | some .start => 3#8)
      ∧ s.statusPayload[44]? = some (match s.longOp.map LongOp.phase with
          | none => 0#8 | some .waiting => 1#8 | some .executing => 2#8))
    ∧ (∀ s : State, s.inReset = false →
    exec .ident s = .next (s.responded 2 0x00#8 [0x4E#8, 0x17#8, 0x22#8, 0x40#8, 0x01#8]))

/-- COMPLETION returns the record and empties it; an EMPTY record is returned as absent and nothing changes. A later
write of the record finds it EMPTY, and a write before it sets the overrun flag (R185, R186, R203). FAULT_POP removes
and returns the oldest record with the dropped counter and the records left; the counter is reset when the log becomes
empty, and an empty log is reported and left (R194, R203). The bits of their payloads that R203 gives to no field are 0
(log entry 40). -/
def Obligations.RecordsAreReadOnce : Prop :=
  (∀ s : State, s.inReset = false →
    (s.completion = none →
      exec .completion s = .next (s.responded 2 0x00#8 (List.replicate 17 0x00#8)))
    ∧ (∀ c, s.completion = some c →
        exec .completion s =
          .next ({ s with completion := none }.responded 2 0x00#8
            ([0x01#8, c.operation.code, c.origin.code, c.result.code, (c.reason.map Reason.code).getD 0x00#8,
                if c.overrun then 0x01#8 else 0x00#8]
              ++ bytes4 c.epochAfter ++ bytes2 (BitVec.ofNat 16 c.restored) ++ bytes2 (BitVec.ofNat 16 c.skipped)
              ++ [BitVec.ofNat 8 c.discarded, BitVec.ofNat 8 c.carried,
                  (c.fault.map FaultKind.code).getD 0x00#8])))
    ∧ ∀ c, s.writeCompletion c = { s with completion := some { c with overrun := s.completion.isSome } })
    ∧ (∀ s : State, s.inReset = false →
    (s.log = [] → exec .faultPop s = .next (s.responded 2 0x00#8 (List.replicate 19 0x00#8)))
    ∧ ∀ f rest, s.log = f :: rest →
      exec .faultPop s =
        .next ({ s with log := rest, dropped := if rest = [] then 0#8 else s.dropped }.responded 2 0x00#8
          ([0x01#8, f.kind.code, f.source.code,
              BitVec.ofNat 8 ((if f.address.isSome then 1 else 0) + (if f.row.isSome then 2 else 0)
                + (if f.slot.isSome then 4 else 0) + (if f.posted then 8 else 0) + if f.partialDone then 16 else 0)]
            ++ bytes4 ((f.address.getD 0#28).setWidth 32) ++ bytes3 (BitVec.ofNat 24 (f.row.getD 0))
            ++ bytes2 (BitVec.ofNat 16 (f.slot.getD 0)) ++ bytes4 f.epoch
            ++ [s.dropped, BitVec.ofNat 8 rest.length])))

/-- CFG_READ answers the named field of the active or the staging record, right-aligned in four bytes; INVALID_FIELD
for an identifier or a selector without meaning, and STATE for a field of an active configuration that does not exist
(R166, R202). CFG_STAGE and CFG_COPY are decided in the order of R167: STATE before the load ends or during an APPLY,
then for CFG_STAGE INVALID_FIELD, and otherwise only the staging record changes. A field that was staged reads back as
its value (R166, R167, R202). Where the rules leave STATE or INVALID_FIELD open, the choice is free: log entry 2. That
an active record is read in UNCONFIGURED too, between a first APPLY's activation and its end, is log entry 32; that a
stored watermark above 13 bits reads back whole, log entry 37. -/
def Obligations.ConfigurationFieldsAreReadAndStaged : Prop :=
  (∀ (s : State) (identifier : Byte), s.inReset = false →
    (∀ v, fieldValue s.staging identifier = some v →
      exec (.cfgRead 0x01#8 identifier) s = .next (s.responded 4 0x00#8 (bytes4 v)))
    ∧ (fieldValue s.staging identifier = none →
        exec (.cfgRead 0x01#8 identifier) s = .next (s.responded 4 0x03#8 [0x04#8]))
    ∧ (∀ c v, s.active = some c → fieldValue c identifier = some v →
        exec (.cfgRead 0x00#8 identifier) s = .next (s.responded 4 0x00#8 (bytes4 v)))
    ∧ (∀ c, s.active = some c → fieldValue c identifier = none →
        exec (.cfgRead 0x00#8 identifier) s = .next (s.responded 4 0x03#8 [0x04#8]))
    ∧ (∀ v, s.active = none → fieldValue s.staging identifier = some v →
        exec (.cfgRead 0x00#8 identifier) s = .next (s.responded 4 0x03#8 [0x01#8]))
    ∧ (s.active = none → fieldValue s.staging identifier = none → ∃ reason, (reason = 0x01#8 ∨ reason = 0x04#8)
        ∧ exec (.cfgRead 0x00#8 identifier) s =
            .next ({ s with freeCount := s.freeCount + 1 }.responded 4 0x03#8 [reason]))
    ∧ (∀ selector, selector ≠ 0x00#8 → selector ≠ 0x01#8 →
        exec (.cfgRead selector identifier) s = .next (s.responded 4 0x03#8 [0x04#8])))
    ∧ ((∀ (s : State) (identifier : Byte) (value : Word), s.inReset = false →
    (((s.operating = .starting ∧ s.active = none) ∨ (∃ o, s.longOp = some o ∧ o.kind = .apply)) →
      exec (.cfgStage identifier value) s = .next (s.responded 7 0x03#8 [0x01#8])
      ∧ exec .cfgCopy s = .next (s.responded 2 0x03#8 [0x01#8]))
    ∧ ((s.operating ≠ .starting ∨ s.active ≠ none) → (∀ o, s.longOp = some o → o.kind ≠ .apply) →
        (stagedWidth identifier = none →
          exec (.cfgStage identifier value) s = .next (s.responded 7 0x03#8 [0x04#8]))
        ∧ (∀ w, stagedWidth identifier = some w → 2 ^ w ≤ value.toNat →
            exec (.cfgStage identifier value) s = .next (s.responded 7 0x03#8 [0x04#8]))
        ∧ (∀ w, stagedWidth identifier = some w → value.toNat < 2 ^ w →
            exec (.cfgStage identifier value) s =
              .next ({ s with staging := setField s.staging identifier value }.responded 7 0x00#8 []))
        ∧ (s.active = none → exec .cfgCopy s = .next (s.responded 2 0x03#8 [0x01#8]))
        ∧ (∀ c, s.active = some c → exec .cfgCopy s = .next ({ s with staging := c }.responded 2 0x00#8 []))))
    ∧ (∀ (c : ConfigRecord) (identifier : Byte) (value : Word) (w : Nat), stagedWidth identifier = some w →
        value.toNat < 2 ^ w →
        fieldValue (setField c identifier value) identifier = some value
        ∧ ∀ other, other ≠ identifier → fieldValue (setField c identifier value) other = fieldValue c other))

/-- A long command that is taken: STARTED, its record with origin LINK, OPEN becoming DRAINING and any other journal
state staying, the boundary at the last accepted write, and nothing else changed when the head is not in space-wait
and there is nothing to discard (R45, R46, R125, R168, R183). A long command that is not taken changes nothing but the
response: BUSY in STARTING or with a long operation in progress, STATE in UNCONFIGURED for all but APPLY, and then
STATE in BROKEN or OPEN and NO_JOURNAL in ABSENT as the taking decision gives; a RESUME argument without meaning is
refused first (R45, R168, R183). -/
def Obligations.LongCommandsAreDecided : Prop :=
  (∀ (c : Instr) (s : State) (kind : OpKind) (length : Nat) (skip : Bool), s.inReset = false →
    longCommandOf c = some (kind, length, skip) → s.operating.takesLong kind = true → s.longOp = none →
    s.journal.takes kind → ¬ s.headParked →
    ((kind = .rollback ∨ (kind = .undo ∧ s.stack ≠ [])) →
      ∀ e ∈ s.queue, e.state = .taken ∨ s.resolvesJournaled e.address e.beats.length = false) →
    (∀ a b, s.held = some (.write a b) → s.acceptanceOpen = false ∨ s.queueHasRoom = false) →
    exec c s =
      .next ({ s with
        longOp := some (LongOp.created kind .link skip)
        journal := if s.journal = JournalState.opened then .draining else s.journal
        readHeld := if s.journal = JournalState.opened then false else s.readHeld
        headHeld := if s.journal = JournalState.opened then false else s.headHeld
        mark := some (s.nextAcceptance - 1#32) }.responded length 0x01#8 []))
    ∧ ((∀ (c : Instr) (s : State) (kind : OpKind) (length : Nat) (skip : Bool), s.inReset = false →
    longCommandOf c = some (kind, length, skip) →
    ((s.operating = .starting ∨ s.longOp ≠ none) → exec c s = .next (s.responded length 0x02#8 []))
    ∧ (s.operating = .unconfigured → s.longOp = none → kind ≠ .apply →
        exec c s = .next (s.responded length 0x03#8 [0x01#8]))
    ∧ (s.operating.takesLong kind = true → s.longOp = none → ∀ action, s.journal = .broken action →
        kind ≠ .resume → kind ≠ .format → exec c s = .next (s.responded length 0x03#8 [0x01#8]))
    ∧ (s.operating.takesLong kind = true → s.longOp = none → s.journal = .opened → kind = .resume →
        exec c s = .next (s.responded length 0x03#8 [0x01#8]))
    ∧ (s.operating.takesLong kind = true → s.longOp = none → ∀ reason, s.journal = .absent reason →
        kind ≠ .apply → (kind = .format → reason = .notConfigured) →
        exec c s = .next (s.responded length 0x03#8 [0x02#8])))
    ∧ ∀ (s : State) (skip : Byte), s.inReset = false → skip ≠ 0x00#8 → skip ≠ 0x01#8 →
        exec (.resume skip) s = .next (s.responded 3 0x03#8 [0x05#8]))

/-- Taken with a head in space-wait: SAVE, RELEASE, APPLY and FORMAT end at once REFUSED with QUEUE_HELD, and an UNDO
without a savepoint with NO_SAVEPOINT, the head staying; a COMMIT carries every entry back behind its boundary (R48,
R49, R127). UNDO with a savepoint, and ROLLBACK, discard at taking every entry that has not started and resolves to a
JOURNALED region; the others stay in order, and each discarded entry is counted and files no fault (R47, R126). The
held request taken in within the same step is log entry 10. -/
def Obligations.DrainMeetsItsEntriesAtTaking : Prop :=
  (∀ (c : Instr) (s : State) (kind : OpKind) (length : Nat) (skip : Bool) (h : Entry) (rest : List Entry),
    s.inReset = false → longCommandOf c = some (kind, length, skip) →
    (s.operating = .running ∨ s.operating = .quiescing ∨ s.operating = .quiesced) → s.longOp = none →
    s.journal = .opened → s.queue = h :: rest → h.state = .spaceWait →
    (∀ e ∈ s.queue, 1 ≤ (s.nextAcceptance - e.number).toNat) →
    ((kind = .save ∨ kind = .release ∨ kind = .apply ∨ kind = .format) →
      exec c s =
        .next ((s.endedWith .opened
          { operation := kind, origin := .link, result := .refused, reason := some .queueHeld
            epochAfter := s.epochOrZero, restored := 0, skipped := 0, discarded := 0, carried := 0, fault := none
            overrun := false }).settleLatch.responded length 0x01#8 []))
    ∧ (kind = .undo → s.stack = [] →
        exec c s =
          .next ((s.endedWith .opened
            { operation := .undo, origin := .link, result := .refused, reason := some .noSavepoint
              epochAfter := s.epochOrZero, restored := 0, skipped := 0, discarded := 0, carried := 0, fault := none
              overrun := false }).settleLatch.responded length 0x01#8 []))
    ∧ (kind = .commit →
        exec c s =
          .next ({ s with
            longOp := some { LongOp.created .commit .link false with carried := s.queue.length }
            journal := .draining, readHeld := false, headHeld := false, parked := none
            queue := { h with state := .notStarted } :: rest
            mark := some (h.number - 1#32) }.responded length 0x01#8 [])))
    ∧ (∀ (c : Instr) (s : State) (kind : OpKind), s.inReset = false →
    ((c = .undo ∧ kind = .undo ∧ s.stack ≠ []) ∨ (c = .rollback ∧ kind = .rollback)) →
    (s.operating = .running ∨ s.operating = .quiescing ∨ s.operating = .quiesced) → s.longOp = none →
    s.journal = .opened → (∀ e ∈ s.queue, 1 ≤ (s.nextAcceptance - e.number).toNat) →
    (∀ e ∈ s.queue, e.state = .spaceWait → s.resolvesJournaled e.address e.beats.length = true) →
    exec c s =
      .next ({ s with
        longOp := some { LongOp.created kind .link false with
          discarded := (s.queue.filter fun (e : Entry) =>
            e.state != EntryState.taken && s.resolvesJournaled e.address e.beats.length).length }
        journal := .draining, readHeld := false, headHeld := false
        mark := some (s.nextAcceptance - 1#32)
        queue := s.queue.filter fun (e : Entry) => !(e.state != EntryState.taken && s.resolvesJournaled e.address e.beats.length)
        parked := if ∃ e ∈ s.queue, e.state = EntryState.spaceWait then none else s.parked
        frontResponse :=
          if ∃ e ∈ s.queue, e.state ≠ EntryState.taken ∧ s.resolvesJournaled e.address e.beats.length = true
              ∧ e.mark = AckMode.completed then some { okay := true, beats := [] }
          else s.frontResponse }.acceptHeldWrite.responded 2 0x01#8 []))
end

