-- ==== Sys2Proof/Laws/State.lean ====
section
/-! SUPPORT. What each elementary operation over the state sets and what it leaves: one lemma for the fields it sets
(`…_sets`) and one for the fields it leaves (`…_frame`), both simp lemmas, so that no proof unfolds a record
update. -/
namespace Sys2Proof.Machine
set_option linter.unusedTactic false
set_option linter.unusedSimpArgs false

/-! ## Fields that are set -/

@[simp] theorem State.setAnchor_sets (s : State) (c : Copy) (r : AnchorRecord) : (s.setAnchor c r).anchor c = r := by
  cases c <;> rfl

@[simp] theorem State.setAnchor_keeps (s : State) (c : Copy) (r : AnchorRecord) :
    (s.setAnchor c r).anchor c.other = s.anchor c.other := by
  cases c <;> rfl

@[simp] theorem State.setJournal_sets (s : State) (j : JournalState) :
    (s.setJournal j).journal = j ∧ (s.setJournal j).readHeld = false ∧ (s.setJournal j).headHeld = false :=
  ⟨rfl, rfl, rfl⟩

theorem State.file_sets (s : State) (f : FaultRecord) :
    (s.file f).log = (if s.log.length < 16 then s.log ++ [f] else s.log)
      ∧ (s.file f).dropped = if s.log.length < 16 then s.dropped else countUp s.dropped := by
  unfold State.file
  split <;> simp

@[simp] theorem State.addRecord_sets (s : State) (row : Nat) (side : Half) (header : SlotHeader) :
    (s.addRecord row side header).slots =
        s.slots ++ [{ target := row, backLink := indexGet s.index row, side := side }]
      ∧ (s.addRecord row side header).slotHeaders = s.slotHeaders ++ [header]
      ∧ (s.addRecord row side header).index = indexSet s.index row s.tail :=
  ⟨rfl, rfl, rfl⟩

@[simp] theorem State.emptyJournal_sets (s : State) :
    s.emptyJournal.slots = [] ∧ s.emptyJournal.slotHeaders = [] ∧ s.emptyJournal.index = []
      ∧ s.emptyJournal.stack = [] :=
  ⟨rfl, rfl, rfl, rfl⟩

@[simp] theorem State.restartSequence_sets (s : State) :
    s.restartSequence.nextSequence = 0#32 ∧ s.restartSequence.exhausted = false ∧ s.restartSequence.headerMark = 0 :=
  ⟨rfl, rfl, rfl⟩

@[simp] theorem State.raiseHeaderMark_sets (s : State) (k : Nat) :
    (s.raiseHeaderMark k).headerMark = max s.headerMark (k + 1) :=
  rfl

@[simp] theorem State.setWaiting_sets (s : State) (r : Requester) (op : Option RowOp) :
    (s.setWaiting r op).waiting r = op := by
  cases r <;> rfl

@[simp] theorem State.setWaiting_keeps (s : State) (r : Requester) (op : Option RowOp) :
    (s.setWaiting r op).waiting r.other = s.waiting r.other := by
  cases r <;> rfl

@[simp] theorem State.grant_sets (s : State) (r : Requester) (op : RowOp) :
    (s.grant r op).port = .inFlight ⟨r, op, 1, s.timeoutInForce, s.retriesInForce, none⟩
      ∧ (s.grant r op).lastServed = r :=
  ⟨rfl, rfl⟩

@[simp] theorem State.runMaint_sets (s : State) (task : MaintTask) (op : RowOp) :
    (s.runMaint task op).maint = some task := by
  unfold State.runMaint State.requestPort
  repeat' split
  all_goals rfl

@[simp] theorem State.answer_sets (s : State) (okay : Bool) (beats : List Word) :
    (s.answer okay beats).frontResponse = some ⟨okay, beats⟩ :=
  rfl

@[simp] theorem State.count_sets (s : State) (f : LongOp → LongOp) : (s.count f).longOp = s.longOp.map f := rfl

/-! ## Fields that are left -/
@[simp] theorem State.setAnchor_frame (s : State) (c : Copy) (r : AnchorRecord) :
    (s.setAnchor c r).recoveryMark = s.recoveryMark ∧
    (s.setAnchor c r).pending = s.pending ∧ (s.setAnchor c r).inReset = s.inReset ∧
    (s.setAnchor c r).operating = s.operating ∧ (s.setAnchor c r).pfw = s.pfw ∧
    (s.setAnchor c r).ckptHigh = s.ckptHigh ∧ (s.setAnchor c r).mem = s.mem ∧
    (s.setAnchor c r).journal = s.journal ∧ (s.setAnchor c r).epoch = s.epoch ∧
    (s.setAnchor c r).slots = s.slots ∧ (s.setAnchor c r).slotHeaders = s.slotHeaders ∧
    (s.setAnchor c r).index = s.index ∧ (s.setAnchor c r).stack = s.stack ∧
    (s.setAnchor c r).nextSequence = s.nextSequence ∧ (s.setAnchor c r).exhausted = s.exhausted ∧
    (s.setAnchor c r).headerMark = s.headerMark ∧ (s.setAnchor c r).longOp = s.longOp ∧
    (s.setAnchor c r).maint = s.maint ∧ (s.setAnchor c r).active = s.active ∧
    (s.setAnchor c r).staging = s.staging ∧ (s.setAnchor c r).copyA = s.copyA ∧
    (s.setAnchor c r).copyB = s.copyB ∧ (s.setAnchor c r).designation = s.designation ∧
    (s.setAnchor c r).configDegraded = s.configDegraded ∧ (s.setAnchor c r).activationDue = s.activationDue ∧
    (s.setAnchor c r).freeze = s.freeze ∧ (s.setAnchor c r).deferredFreeze = s.deferredFreeze ∧
    (s.setAnchor c r).held = s.held ∧ (s.setAnchor c r).pendingRead = s.pendingRead ∧
    (s.setAnchor c r).queue = s.queue ∧ (s.setAnchor c r).nextAcceptance = s.nextAcceptance ∧
    (s.setAnchor c r).mark = s.mark ∧ (s.setAnchor c r).frontResponse = s.frontResponse ∧
    (s.setAnchor c r).job = s.job ∧ (s.setAnchor c r).parked = s.parked ∧
    (s.setAnchor c r).readHeld = s.readHeld ∧ (s.setAnchor c r).headHeld = s.headHeld ∧
    (s.setAnchor c r).port = s.port ∧ (s.setAnchor c r).waitFront = s.waitFront ∧
    (s.setAnchor c r).waitMaint = s.waitMaint ∧ (s.setAnchor c r).lastServed = s.lastServed ∧
    (s.setAnchor c r).retryCounter = s.retryCounter ∧ (s.setAnchor c r).response = s.response ∧
    (s.setAnchor c r).linkOut = s.linkOut ∧ (s.setAnchor c r).completion = s.completion ∧
    (s.setAnchor c r).ckptLatch = s.ckptLatch ∧ (s.setAnchor c r).log = s.log ∧
    (s.setAnchor c r).dropped = s.dropped ∧ (s.setAnchor c r).alertMask = s.alertMask ∧
    (s.setAnchor c r).freeCount = s.freeCount := by
  unfold State.setAnchor
  all_goals try dsimp only
  all_goals repeat' split
  all_goals simp

@[simp] theorem State.setCopy_frame (s : State) (c : Copy) (r : CopyRecord) :
    (s.setCopy c r).recoveryMark = s.recoveryMark ∧
    (s.setCopy c r).pending = s.pending ∧ (s.setCopy c r).inReset = s.inReset ∧
    (s.setCopy c r).operating = s.operating ∧ (s.setCopy c r).pfw = s.pfw ∧
    (s.setCopy c r).ckptHigh = s.ckptHigh ∧ (s.setCopy c r).mem = s.mem ∧ (s.setCopy c r).journal = s.journal ∧
    (s.setCopy c r).epoch = s.epoch ∧ (s.setCopy c r).anchorA = s.anchorA ∧ (s.setCopy c r).anchorB = s.anchorB ∧
    (s.setCopy c r).slots = s.slots ∧ (s.setCopy c r).slotHeaders = s.slotHeaders ∧
    (s.setCopy c r).index = s.index ∧ (s.setCopy c r).stack = s.stack ∧
    (s.setCopy c r).nextSequence = s.nextSequence ∧ (s.setCopy c r).exhausted = s.exhausted ∧
    (s.setCopy c r).headerMark = s.headerMark ∧ (s.setCopy c r).longOp = s.longOp ∧
    (s.setCopy c r).maint = s.maint ∧ (s.setCopy c r).active = s.active ∧ (s.setCopy c r).staging = s.staging ∧
    (s.setCopy c r).designation = s.designation ∧ (s.setCopy c r).configDegraded = s.configDegraded ∧
    (s.setCopy c r).activationDue = s.activationDue ∧ (s.setCopy c r).freeze = s.freeze ∧
    (s.setCopy c r).deferredFreeze = s.deferredFreeze ∧ (s.setCopy c r).held = s.held ∧
    (s.setCopy c r).pendingRead = s.pendingRead ∧ (s.setCopy c r).queue = s.queue ∧
    (s.setCopy c r).nextAcceptance = s.nextAcceptance ∧ (s.setCopy c r).mark = s.mark ∧
    (s.setCopy c r).frontResponse = s.frontResponse ∧ (s.setCopy c r).job = s.job ∧
    (s.setCopy c r).parked = s.parked ∧ (s.setCopy c r).readHeld = s.readHeld ∧
    (s.setCopy c r).headHeld = s.headHeld ∧ (s.setCopy c r).port = s.port ∧
    (s.setCopy c r).waitFront = s.waitFront ∧ (s.setCopy c r).waitMaint = s.waitMaint ∧
    (s.setCopy c r).lastServed = s.lastServed ∧ (s.setCopy c r).retryCounter = s.retryCounter ∧
    (s.setCopy c r).response = s.response ∧ (s.setCopy c r).linkOut = s.linkOut ∧
    (s.setCopy c r).completion = s.completion ∧ (s.setCopy c r).ckptLatch = s.ckptLatch ∧
    (s.setCopy c r).log = s.log ∧ (s.setCopy c r).dropped = s.dropped ∧ (s.setCopy c r).alertMask = s.alertMask ∧
    (s.setCopy c r).freeCount = s.freeCount := by
  unfold State.setCopy
  all_goals try dsimp only
  all_goals repeat' split
  all_goals simp

@[simp] theorem State.setJournal_frame (s : State) (j : JournalState) :
    (s.setJournal j).recoveryMark = s.recoveryMark ∧
    (s.setJournal j).pending = s.pending ∧ (s.setJournal j).inReset = s.inReset ∧
    (s.setJournal j).operating = s.operating ∧ (s.setJournal j).pfw = s.pfw ∧
    (s.setJournal j).ckptHigh = s.ckptHigh ∧ (s.setJournal j).mem = s.mem ∧ (s.setJournal j).epoch = s.epoch ∧
    (s.setJournal j).anchorA = s.anchorA ∧ (s.setJournal j).anchorB = s.anchorB ∧
    (s.setJournal j).slots = s.slots ∧ (s.setJournal j).slotHeaders = s.slotHeaders ∧
    (s.setJournal j).index = s.index ∧ (s.setJournal j).stack = s.stack ∧
    (s.setJournal j).nextSequence = s.nextSequence ∧ (s.setJournal j).exhausted = s.exhausted ∧
    (s.setJournal j).headerMark = s.headerMark ∧ (s.setJournal j).longOp = s.longOp ∧
    (s.setJournal j).maint = s.maint ∧ (s.setJournal j).active = s.active ∧ (s.setJournal j).staging = s.staging ∧
    (s.setJournal j).copyA = s.copyA ∧ (s.setJournal j).copyB = s.copyB ∧
    (s.setJournal j).designation = s.designation ∧ (s.setJournal j).configDegraded = s.configDegraded ∧
    (s.setJournal j).activationDue = s.activationDue ∧ (s.setJournal j).freeze = s.freeze ∧
    (s.setJournal j).deferredFreeze = s.deferredFreeze ∧ (s.setJournal j).held = s.held ∧
    (s.setJournal j).pendingRead = s.pendingRead ∧ (s.setJournal j).queue = s.queue ∧
    (s.setJournal j).nextAcceptance = s.nextAcceptance ∧ (s.setJournal j).mark = s.mark ∧
    (s.setJournal j).frontResponse = s.frontResponse ∧ (s.setJournal j).job = s.job ∧
    (s.setJournal j).parked = s.parked ∧ (s.setJournal j).port = s.port ∧
    (s.setJournal j).waitFront = s.waitFront ∧ (s.setJournal j).waitMaint = s.waitMaint ∧
    (s.setJournal j).lastServed = s.lastServed ∧ (s.setJournal j).retryCounter = s.retryCounter ∧
    (s.setJournal j).response = s.response ∧ (s.setJournal j).linkOut = s.linkOut ∧
    (s.setJournal j).completion = s.completion ∧ (s.setJournal j).ckptLatch = s.ckptLatch ∧
    (s.setJournal j).log = s.log ∧ (s.setJournal j).dropped = s.dropped ∧
    (s.setJournal j).alertMask = s.alertMask ∧ (s.setJournal j).freeCount = s.freeCount := by
  unfold State.setJournal
  all_goals try dsimp only
  all_goals repeat' split
  all_goals simp

@[simp] theorem State.file_frame (s : State) (f : FaultRecord) :
    (s.file f).recoveryMark = s.recoveryMark ∧
    (s.file f).pending = s.pending ∧ (s.file f).inReset = s.inReset ∧ (s.file f).operating = s.operating ∧
    (s.file f).pfw = s.pfw ∧ (s.file f).ckptHigh = s.ckptHigh ∧ (s.file f).mem = s.mem ∧
    (s.file f).journal = s.journal ∧ (s.file f).epoch = s.epoch ∧ (s.file f).anchorA = s.anchorA ∧
    (s.file f).anchorB = s.anchorB ∧ (s.file f).slots = s.slots ∧ (s.file f).slotHeaders = s.slotHeaders ∧
    (s.file f).index = s.index ∧ (s.file f).stack = s.stack ∧ (s.file f).nextSequence = s.nextSequence ∧
    (s.file f).exhausted = s.exhausted ∧ (s.file f).headerMark = s.headerMark ∧ (s.file f).longOp = s.longOp ∧
    (s.file f).maint = s.maint ∧ (s.file f).active = s.active ∧ (s.file f).staging = s.staging ∧
    (s.file f).copyA = s.copyA ∧ (s.file f).copyB = s.copyB ∧ (s.file f).designation = s.designation ∧
    (s.file f).configDegraded = s.configDegraded ∧ (s.file f).activationDue = s.activationDue ∧
    (s.file f).freeze = s.freeze ∧ (s.file f).deferredFreeze = s.deferredFreeze ∧ (s.file f).held = s.held ∧
    (s.file f).pendingRead = s.pendingRead ∧ (s.file f).queue = s.queue ∧
    (s.file f).nextAcceptance = s.nextAcceptance ∧ (s.file f).mark = s.mark ∧
    (s.file f).frontResponse = s.frontResponse ∧ (s.file f).job = s.job ∧ (s.file f).parked = s.parked ∧
    (s.file f).readHeld = s.readHeld ∧ (s.file f).headHeld = s.headHeld ∧ (s.file f).port = s.port ∧
    (s.file f).waitFront = s.waitFront ∧ (s.file f).waitMaint = s.waitMaint ∧
    (s.file f).lastServed = s.lastServed ∧ (s.file f).retryCounter = s.retryCounter ∧
    (s.file f).response = s.response ∧ (s.file f).linkOut = s.linkOut ∧ (s.file f).completion = s.completion ∧
    (s.file f).ckptLatch = s.ckptLatch ∧ (s.file f).alertMask = s.alertMask ∧
    (s.file f).freeCount = s.freeCount := by
  unfold State.file
  all_goals try dsimp only
  all_goals repeat' split
  all_goals simp

@[simp] theorem State.fileTogether_frame (s : State) (f g : FaultRecord) :
    (s.fileTogether f g).recoveryMark = s.recoveryMark ∧
    (s.fileTogether f g).pending = s.pending ∧ (s.fileTogether f g).inReset = s.inReset ∧
    (s.fileTogether f g).operating = s.operating ∧ (s.fileTogether f g).pfw = s.pfw ∧
    (s.fileTogether f g).ckptHigh = s.ckptHigh ∧ (s.fileTogether f g).mem = s.mem ∧
    (s.fileTogether f g).journal = s.journal ∧ (s.fileTogether f g).epoch = s.epoch ∧
    (s.fileTogether f g).anchorA = s.anchorA ∧ (s.fileTogether f g).anchorB = s.anchorB ∧
    (s.fileTogether f g).slots = s.slots ∧ (s.fileTogether f g).slotHeaders = s.slotHeaders ∧
    (s.fileTogether f g).index = s.index ∧ (s.fileTogether f g).stack = s.stack ∧
    (s.fileTogether f g).nextSequence = s.nextSequence ∧ (s.fileTogether f g).exhausted = s.exhausted ∧
    (s.fileTogether f g).headerMark = s.headerMark ∧ (s.fileTogether f g).longOp = s.longOp ∧
    (s.fileTogether f g).maint = s.maint ∧ (s.fileTogether f g).active = s.active ∧
    (s.fileTogether f g).staging = s.staging ∧ (s.fileTogether f g).copyA = s.copyA ∧
    (s.fileTogether f g).copyB = s.copyB ∧ (s.fileTogether f g).designation = s.designation ∧
    (s.fileTogether f g).configDegraded = s.configDegraded ∧
    (s.fileTogether f g).activationDue = s.activationDue ∧ (s.fileTogether f g).freeze = s.freeze ∧
    (s.fileTogether f g).deferredFreeze = s.deferredFreeze ∧ (s.fileTogether f g).held = s.held ∧
    (s.fileTogether f g).pendingRead = s.pendingRead ∧ (s.fileTogether f g).queue = s.queue ∧
    (s.fileTogether f g).nextAcceptance = s.nextAcceptance ∧ (s.fileTogether f g).mark = s.mark ∧
    (s.fileTogether f g).frontResponse = s.frontResponse ∧ (s.fileTogether f g).job = s.job ∧
    (s.fileTogether f g).parked = s.parked ∧ (s.fileTogether f g).readHeld = s.readHeld ∧
    (s.fileTogether f g).headHeld = s.headHeld ∧ (s.fileTogether f g).port = s.port ∧
    (s.fileTogether f g).waitFront = s.waitFront ∧ (s.fileTogether f g).waitMaint = s.waitMaint ∧
    (s.fileTogether f g).lastServed = s.lastServed ∧ (s.fileTogether f g).retryCounter = s.retryCounter ∧
    (s.fileTogether f g).response = s.response ∧ (s.fileTogether f g).linkOut = s.linkOut ∧
    (s.fileTogether f g).completion = s.completion ∧ (s.fileTogether f g).ckptLatch = s.ckptLatch ∧
    (s.fileTogether f g).alertMask = s.alertMask := by
  unfold State.fileTogether
  all_goals try dsimp only
  all_goals repeat' split
  all_goals simp

@[simp] theorem State.consumeSequence_frame (s : State) :
    (s.consumeSequence).recoveryMark = s.recoveryMark ∧
    (s.consumeSequence).pending = s.pending ∧ (s.consumeSequence).inReset = s.inReset ∧
    (s.consumeSequence).operating = s.operating ∧ (s.consumeSequence).pfw = s.pfw ∧
    (s.consumeSequence).ckptHigh = s.ckptHigh ∧ (s.consumeSequence).mem = s.mem ∧
    (s.consumeSequence).journal = s.journal ∧ (s.consumeSequence).epoch = s.epoch ∧
    (s.consumeSequence).anchorA = s.anchorA ∧ (s.consumeSequence).anchorB = s.anchorB ∧
    (s.consumeSequence).slots = s.slots ∧ (s.consumeSequence).slotHeaders = s.slotHeaders ∧
    (s.consumeSequence).index = s.index ∧ (s.consumeSequence).stack = s.stack ∧
    (s.consumeSequence).headerMark = s.headerMark ∧ (s.consumeSequence).longOp = s.longOp ∧
    (s.consumeSequence).maint = s.maint ∧ (s.consumeSequence).active = s.active ∧
    (s.consumeSequence).staging = s.staging ∧ (s.consumeSequence).copyA = s.copyA ∧
    (s.consumeSequence).copyB = s.copyB ∧ (s.consumeSequence).designation = s.designation ∧
    (s.consumeSequence).configDegraded = s.configDegraded ∧ (s.consumeSequence).activationDue = s.activationDue ∧
    (s.consumeSequence).freeze = s.freeze ∧ (s.consumeSequence).deferredFreeze = s.deferredFreeze ∧
    (s.consumeSequence).held = s.held ∧ (s.consumeSequence).pendingRead = s.pendingRead ∧
    (s.consumeSequence).queue = s.queue ∧ (s.consumeSequence).nextAcceptance = s.nextAcceptance ∧
    (s.consumeSequence).mark = s.mark ∧ (s.consumeSequence).frontResponse = s.frontResponse ∧
    (s.consumeSequence).job = s.job ∧ (s.consumeSequence).parked = s.parked ∧
    (s.consumeSequence).readHeld = s.readHeld ∧ (s.consumeSequence).headHeld = s.headHeld ∧
    (s.consumeSequence).port = s.port ∧ (s.consumeSequence).waitFront = s.waitFront ∧
    (s.consumeSequence).waitMaint = s.waitMaint ∧ (s.consumeSequence).lastServed = s.lastServed ∧
    (s.consumeSequence).retryCounter = s.retryCounter ∧ (s.consumeSequence).response = s.response ∧
    (s.consumeSequence).linkOut = s.linkOut ∧ (s.consumeSequence).completion = s.completion ∧
    (s.consumeSequence).ckptLatch = s.ckptLatch ∧ (s.consumeSequence).log = s.log ∧
    (s.consumeSequence).dropped = s.dropped ∧ (s.consumeSequence).alertMask = s.alertMask ∧
    (s.consumeSequence).freeCount = s.freeCount := by
  unfold State.consumeSequence
  all_goals try dsimp only
  all_goals repeat' split
  all_goals simp

@[simp] theorem State.addRecord_frame (s : State) (row : Nat) (side : Half) (header : SlotHeader) :
    (s.addRecord row side header).recoveryMark = s.recoveryMark ∧
    (s.addRecord row side header).pending = s.pending ∧ (s.addRecord row side header).inReset = s.inReset ∧
    (s.addRecord row side header).operating = s.operating ∧ (s.addRecord row side header).pfw = s.pfw ∧
    (s.addRecord row side header).ckptHigh = s.ckptHigh ∧ (s.addRecord row side header).mem = s.mem ∧
    (s.addRecord row side header).journal = s.journal ∧ (s.addRecord row side header).epoch = s.epoch ∧
    (s.addRecord row side header).anchorA = s.anchorA ∧ (s.addRecord row side header).anchorB = s.anchorB ∧
    (s.addRecord row side header).stack = s.stack ∧ (s.addRecord row side header).nextSequence = s.nextSequence ∧
    (s.addRecord row side header).exhausted = s.exhausted ∧
    (s.addRecord row side header).headerMark = s.headerMark ∧ (s.addRecord row side header).longOp = s.longOp ∧
    (s.addRecord row side header).maint = s.maint ∧ (s.addRecord row side header).active = s.active ∧
    (s.addRecord row side header).staging = s.staging ∧ (s.addRecord row side header).copyA = s.copyA ∧
    (s.addRecord row side header).copyB = s.copyB ∧ (s.addRecord row side header).designation = s.designation ∧
    (s.addRecord row side header).configDegraded = s.configDegraded ∧
    (s.addRecord row side header).activationDue = s.activationDue ∧
    (s.addRecord row side header).freeze = s.freeze ∧
    (s.addRecord row side header).deferredFreeze = s.deferredFreeze ∧
    (s.addRecord row side header).held = s.held ∧ (s.addRecord row side header).pendingRead = s.pendingRead ∧
    (s.addRecord row side header).queue = s.queue ∧
    (s.addRecord row side header).nextAcceptance = s.nextAcceptance ∧
    (s.addRecord row side header).mark = s.mark ∧ (s.addRecord row side header).frontResponse = s.frontResponse ∧
    (s.addRecord row side header).job = s.job ∧ (s.addRecord row side header).parked = s.parked ∧
    (s.addRecord row side header).readHeld = s.readHeld ∧ (s.addRecord row side header).headHeld = s.headHeld ∧
    (s.addRecord row side header).port = s.port ∧ (s.addRecord row side header).waitFront = s.waitFront ∧
    (s.addRecord row side header).waitMaint = s.waitMaint ∧
    (s.addRecord row side header).lastServed = s.lastServed ∧
    (s.addRecord row side header).retryCounter = s.retryCounter ∧
    (s.addRecord row side header).response = s.response ∧ (s.addRecord row side header).linkOut = s.linkOut ∧
    (s.addRecord row side header).completion = s.completion ∧
    (s.addRecord row side header).ckptLatch = s.ckptLatch ∧ (s.addRecord row side header).log = s.log ∧
    (s.addRecord row side header).dropped = s.dropped ∧ (s.addRecord row side header).alertMask = s.alertMask ∧
    (s.addRecord row side header).freeCount = s.freeCount := by
  unfold State.addRecord
  all_goals try dsimp only
  all_goals repeat' split
  all_goals simp

@[simp] theorem State.dropRecord_frame (s : State) :
    (s.dropRecord).recoveryMark = s.recoveryMark ∧
    (s.dropRecord).pending = s.pending ∧ (s.dropRecord).inReset = s.inReset ∧
    (s.dropRecord).operating = s.operating ∧ (s.dropRecord).pfw = s.pfw ∧ (s.dropRecord).ckptHigh = s.ckptHigh ∧
    (s.dropRecord).mem = s.mem ∧ (s.dropRecord).journal = s.journal ∧ (s.dropRecord).epoch = s.epoch ∧
    (s.dropRecord).anchorA = s.anchorA ∧ (s.dropRecord).anchorB = s.anchorB ∧ (s.dropRecord).stack = s.stack ∧
    (s.dropRecord).nextSequence = s.nextSequence ∧ (s.dropRecord).exhausted = s.exhausted ∧
    (s.dropRecord).headerMark = s.headerMark ∧ (s.dropRecord).longOp = s.longOp ∧ (s.dropRecord).maint = s.maint ∧
    (s.dropRecord).active = s.active ∧ (s.dropRecord).staging = s.staging ∧ (s.dropRecord).copyA = s.copyA ∧
    (s.dropRecord).copyB = s.copyB ∧ (s.dropRecord).designation = s.designation ∧
    (s.dropRecord).configDegraded = s.configDegraded ∧ (s.dropRecord).activationDue = s.activationDue ∧
    (s.dropRecord).freeze = s.freeze ∧ (s.dropRecord).deferredFreeze = s.deferredFreeze ∧
    (s.dropRecord).held = s.held ∧ (s.dropRecord).pendingRead = s.pendingRead ∧ (s.dropRecord).queue = s.queue ∧
    (s.dropRecord).nextAcceptance = s.nextAcceptance ∧ (s.dropRecord).mark = s.mark ∧
    (s.dropRecord).frontResponse = s.frontResponse ∧ (s.dropRecord).job = s.job ∧
    (s.dropRecord).parked = s.parked ∧ (s.dropRecord).readHeld = s.readHeld ∧
    (s.dropRecord).headHeld = s.headHeld ∧ (s.dropRecord).port = s.port ∧ (s.dropRecord).waitFront = s.waitFront ∧
    (s.dropRecord).waitMaint = s.waitMaint ∧ (s.dropRecord).lastServed = s.lastServed ∧
    (s.dropRecord).retryCounter = s.retryCounter ∧ (s.dropRecord).response = s.response ∧
    (s.dropRecord).linkOut = s.linkOut ∧ (s.dropRecord).completion = s.completion ∧
    (s.dropRecord).ckptLatch = s.ckptLatch ∧ (s.dropRecord).log = s.log ∧ (s.dropRecord).dropped = s.dropped ∧
    (s.dropRecord).alertMask = s.alertMask ∧ (s.dropRecord).freeCount = s.freeCount := by
  unfold State.dropRecord
  all_goals try dsimp only
  all_goals repeat' split
  all_goals simp

@[simp] theorem State.emptyJournal_frame (s : State) :
    (s.emptyJournal).recoveryMark = s.recoveryMark ∧
    (s.emptyJournal).pending = s.pending ∧ (s.emptyJournal).inReset = s.inReset ∧
    (s.emptyJournal).operating = s.operating ∧ (s.emptyJournal).pfw = s.pfw ∧
    (s.emptyJournal).ckptHigh = s.ckptHigh ∧ (s.emptyJournal).mem = s.mem ∧ (s.emptyJournal).journal = s.journal ∧
    (s.emptyJournal).epoch = s.epoch ∧ (s.emptyJournal).anchorA = s.anchorA ∧
    (s.emptyJournal).anchorB = s.anchorB ∧ (s.emptyJournal).nextSequence = s.nextSequence ∧
    (s.emptyJournal).exhausted = s.exhausted ∧ (s.emptyJournal).headerMark = s.headerMark ∧
    (s.emptyJournal).longOp = s.longOp ∧ (s.emptyJournal).maint = s.maint ∧ (s.emptyJournal).active = s.active ∧
    (s.emptyJournal).staging = s.staging ∧ (s.emptyJournal).copyA = s.copyA ∧ (s.emptyJournal).copyB = s.copyB ∧
    (s.emptyJournal).designation = s.designation ∧ (s.emptyJournal).configDegraded = s.configDegraded ∧
    (s.emptyJournal).activationDue = s.activationDue ∧ (s.emptyJournal).freeze = s.freeze ∧
    (s.emptyJournal).deferredFreeze = s.deferredFreeze ∧ (s.emptyJournal).held = s.held ∧
    (s.emptyJournal).pendingRead = s.pendingRead ∧ (s.emptyJournal).queue = s.queue ∧
    (s.emptyJournal).nextAcceptance = s.nextAcceptance ∧ (s.emptyJournal).mark = s.mark ∧
    (s.emptyJournal).frontResponse = s.frontResponse ∧ (s.emptyJournal).job = s.job ∧
    (s.emptyJournal).parked = s.parked ∧ (s.emptyJournal).readHeld = s.readHeld ∧
    (s.emptyJournal).headHeld = s.headHeld ∧ (s.emptyJournal).port = s.port ∧
    (s.emptyJournal).waitFront = s.waitFront ∧ (s.emptyJournal).waitMaint = s.waitMaint ∧
    (s.emptyJournal).lastServed = s.lastServed ∧ (s.emptyJournal).retryCounter = s.retryCounter ∧
    (s.emptyJournal).response = s.response ∧ (s.emptyJournal).linkOut = s.linkOut ∧
    (s.emptyJournal).completion = s.completion ∧ (s.emptyJournal).ckptLatch = s.ckptLatch ∧
    (s.emptyJournal).log = s.log ∧ (s.emptyJournal).dropped = s.dropped ∧
    (s.emptyJournal).alertMask = s.alertMask ∧ (s.emptyJournal).freeCount = s.freeCount := by
  unfold State.emptyJournal
  all_goals try dsimp only
  all_goals repeat' split
  all_goals simp

@[simp] theorem State.restartSequence_frame (s : State) :
    (s.restartSequence).recoveryMark = s.recoveryMark ∧
    (s.restartSequence).pending = s.pending ∧ (s.restartSequence).inReset = s.inReset ∧
    (s.restartSequence).operating = s.operating ∧ (s.restartSequence).pfw = s.pfw ∧
    (s.restartSequence).ckptHigh = s.ckptHigh ∧ (s.restartSequence).mem = s.mem ∧
    (s.restartSequence).journal = s.journal ∧ (s.restartSequence).epoch = s.epoch ∧
    (s.restartSequence).anchorA = s.anchorA ∧ (s.restartSequence).anchorB = s.anchorB ∧
    (s.restartSequence).slots = s.slots ∧ (s.restartSequence).slotHeaders = s.slotHeaders ∧
    (s.restartSequence).index = s.index ∧ (s.restartSequence).stack = s.stack ∧
    (s.restartSequence).longOp = s.longOp ∧ (s.restartSequence).maint = s.maint ∧
    (s.restartSequence).active = s.active ∧ (s.restartSequence).staging = s.staging ∧
    (s.restartSequence).copyA = s.copyA ∧ (s.restartSequence).copyB = s.copyB ∧
    (s.restartSequence).designation = s.designation ∧ (s.restartSequence).configDegraded = s.configDegraded ∧
    (s.restartSequence).activationDue = s.activationDue ∧ (s.restartSequence).freeze = s.freeze ∧
    (s.restartSequence).deferredFreeze = s.deferredFreeze ∧ (s.restartSequence).held = s.held ∧
    (s.restartSequence).pendingRead = s.pendingRead ∧ (s.restartSequence).queue = s.queue ∧
    (s.restartSequence).nextAcceptance = s.nextAcceptance ∧ (s.restartSequence).mark = s.mark ∧
    (s.restartSequence).frontResponse = s.frontResponse ∧ (s.restartSequence).job = s.job ∧
    (s.restartSequence).parked = s.parked ∧ (s.restartSequence).readHeld = s.readHeld ∧
    (s.restartSequence).headHeld = s.headHeld ∧ (s.restartSequence).port = s.port ∧
    (s.restartSequence).waitFront = s.waitFront ∧ (s.restartSequence).waitMaint = s.waitMaint ∧
    (s.restartSequence).lastServed = s.lastServed ∧ (s.restartSequence).retryCounter = s.retryCounter ∧
    (s.restartSequence).response = s.response ∧ (s.restartSequence).linkOut = s.linkOut ∧
    (s.restartSequence).completion = s.completion ∧ (s.restartSequence).ckptLatch = s.ckptLatch ∧
    (s.restartSequence).log = s.log ∧ (s.restartSequence).dropped = s.dropped ∧
    (s.restartSequence).alertMask = s.alertMask ∧ (s.restartSequence).freeCount = s.freeCount := by
  unfold State.restartSequence
  all_goals try dsimp only
  all_goals repeat' split
  all_goals simp

@[simp] theorem State.raiseHeaderMark_frame (s : State) (k : Nat) :
    (s.raiseHeaderMark k).recoveryMark = s.recoveryMark ∧
    (s.raiseHeaderMark k).pending = s.pending ∧ (s.raiseHeaderMark k).inReset = s.inReset ∧
    (s.raiseHeaderMark k).operating = s.operating ∧ (s.raiseHeaderMark k).pfw = s.pfw ∧
    (s.raiseHeaderMark k).ckptHigh = s.ckptHigh ∧ (s.raiseHeaderMark k).mem = s.mem ∧
    (s.raiseHeaderMark k).journal = s.journal ∧ (s.raiseHeaderMark k).epoch = s.epoch ∧
    (s.raiseHeaderMark k).anchorA = s.anchorA ∧ (s.raiseHeaderMark k).anchorB = s.anchorB ∧
    (s.raiseHeaderMark k).slots = s.slots ∧ (s.raiseHeaderMark k).slotHeaders = s.slotHeaders ∧
    (s.raiseHeaderMark k).index = s.index ∧ (s.raiseHeaderMark k).stack = s.stack ∧
    (s.raiseHeaderMark k).nextSequence = s.nextSequence ∧ (s.raiseHeaderMark k).exhausted = s.exhausted ∧
    (s.raiseHeaderMark k).longOp = s.longOp ∧ (s.raiseHeaderMark k).maint = s.maint ∧
    (s.raiseHeaderMark k).active = s.active ∧ (s.raiseHeaderMark k).staging = s.staging ∧
    (s.raiseHeaderMark k).copyA = s.copyA ∧ (s.raiseHeaderMark k).copyB = s.copyB ∧
    (s.raiseHeaderMark k).designation = s.designation ∧ (s.raiseHeaderMark k).configDegraded = s.configDegraded ∧
    (s.raiseHeaderMark k).activationDue = s.activationDue ∧ (s.raiseHeaderMark k).freeze = s.freeze ∧
    (s.raiseHeaderMark k).deferredFreeze = s.deferredFreeze ∧ (s.raiseHeaderMark k).held = s.held ∧
    (s.raiseHeaderMark k).pendingRead = s.pendingRead ∧ (s.raiseHeaderMark k).queue = s.queue ∧
    (s.raiseHeaderMark k).nextAcceptance = s.nextAcceptance ∧ (s.raiseHeaderMark k).mark = s.mark ∧
    (s.raiseHeaderMark k).frontResponse = s.frontResponse ∧ (s.raiseHeaderMark k).job = s.job ∧
    (s.raiseHeaderMark k).parked = s.parked ∧ (s.raiseHeaderMark k).readHeld = s.readHeld ∧
    (s.raiseHeaderMark k).headHeld = s.headHeld ∧ (s.raiseHeaderMark k).port = s.port ∧
    (s.raiseHeaderMark k).waitFront = s.waitFront ∧ (s.raiseHeaderMark k).waitMaint = s.waitMaint ∧
    (s.raiseHeaderMark k).lastServed = s.lastServed ∧ (s.raiseHeaderMark k).retryCounter = s.retryCounter ∧
    (s.raiseHeaderMark k).response = s.response ∧ (s.raiseHeaderMark k).linkOut = s.linkOut ∧
    (s.raiseHeaderMark k).completion = s.completion ∧ (s.raiseHeaderMark k).ckptLatch = s.ckptLatch ∧
    (s.raiseHeaderMark k).log = s.log ∧ (s.raiseHeaderMark k).dropped = s.dropped ∧
    (s.raiseHeaderMark k).alertMask = s.alertMask ∧ (s.raiseHeaderMark k).freeCount = s.freeCount := by
  unfold State.raiseHeaderMark
  all_goals try dsimp only
  all_goals repeat' split
  all_goals simp

@[simp] theorem State.setWaiting_frame (s : State) (r : Requester) (op : Option RowOp) :
    (s.setWaiting r op).recoveryMark = s.recoveryMark ∧
    (s.setWaiting r op).pending = s.pending ∧ (s.setWaiting r op).inReset = s.inReset ∧
    (s.setWaiting r op).operating = s.operating ∧ (s.setWaiting r op).pfw = s.pfw ∧
    (s.setWaiting r op).ckptHigh = s.ckptHigh ∧ (s.setWaiting r op).mem = s.mem ∧
    (s.setWaiting r op).journal = s.journal ∧ (s.setWaiting r op).epoch = s.epoch ∧
    (s.setWaiting r op).anchorA = s.anchorA ∧ (s.setWaiting r op).anchorB = s.anchorB ∧
    (s.setWaiting r op).slots = s.slots ∧ (s.setWaiting r op).slotHeaders = s.slotHeaders ∧
    (s.setWaiting r op).index = s.index ∧ (s.setWaiting r op).stack = s.stack ∧
    (s.setWaiting r op).nextSequence = s.nextSequence ∧ (s.setWaiting r op).exhausted = s.exhausted ∧
    (s.setWaiting r op).headerMark = s.headerMark ∧ (s.setWaiting r op).longOp = s.longOp ∧
    (s.setWaiting r op).maint = s.maint ∧ (s.setWaiting r op).active = s.active ∧
    (s.setWaiting r op).staging = s.staging ∧ (s.setWaiting r op).copyA = s.copyA ∧
    (s.setWaiting r op).copyB = s.copyB ∧ (s.setWaiting r op).designation = s.designation ∧
    (s.setWaiting r op).configDegraded = s.configDegraded ∧ (s.setWaiting r op).activationDue = s.activationDue ∧
    (s.setWaiting r op).freeze = s.freeze ∧ (s.setWaiting r op).deferredFreeze = s.deferredFreeze ∧
    (s.setWaiting r op).held = s.held ∧ (s.setWaiting r op).pendingRead = s.pendingRead ∧
    (s.setWaiting r op).queue = s.queue ∧ (s.setWaiting r op).nextAcceptance = s.nextAcceptance ∧
    (s.setWaiting r op).mark = s.mark ∧ (s.setWaiting r op).frontResponse = s.frontResponse ∧
    (s.setWaiting r op).job = s.job ∧ (s.setWaiting r op).parked = s.parked ∧
    (s.setWaiting r op).readHeld = s.readHeld ∧ (s.setWaiting r op).headHeld = s.headHeld ∧
    (s.setWaiting r op).port = s.port ∧ (s.setWaiting r op).lastServed = s.lastServed ∧
    (s.setWaiting r op).retryCounter = s.retryCounter ∧ (s.setWaiting r op).response = s.response ∧
    (s.setWaiting r op).linkOut = s.linkOut ∧ (s.setWaiting r op).completion = s.completion ∧
    (s.setWaiting r op).ckptLatch = s.ckptLatch ∧ (s.setWaiting r op).log = s.log ∧
    (s.setWaiting r op).dropped = s.dropped ∧ (s.setWaiting r op).alertMask = s.alertMask ∧
    (s.setWaiting r op).freeCount = s.freeCount := by
  unfold State.setWaiting
  all_goals try dsimp only
  all_goals repeat' split
  all_goals simp

@[simp] theorem State.grant_frame (s : State) (r : Requester) (op : RowOp) :
    (s.grant r op).recoveryMark = s.recoveryMark ∧
    (s.grant r op).pending = s.pending ∧ (s.grant r op).inReset = s.inReset ∧
    (s.grant r op).operating = s.operating ∧ (s.grant r op).pfw = s.pfw ∧ (s.grant r op).ckptHigh = s.ckptHigh ∧
    (s.grant r op).mem = s.mem ∧ (s.grant r op).journal = s.journal ∧ (s.grant r op).epoch = s.epoch ∧
    (s.grant r op).anchorA = s.anchorA ∧ (s.grant r op).anchorB = s.anchorB ∧ (s.grant r op).slots = s.slots ∧
    (s.grant r op).slotHeaders = s.slotHeaders ∧ (s.grant r op).index = s.index ∧ (s.grant r op).stack = s.stack ∧
    (s.grant r op).nextSequence = s.nextSequence ∧ (s.grant r op).exhausted = s.exhausted ∧
    (s.grant r op).headerMark = s.headerMark ∧ (s.grant r op).longOp = s.longOp ∧ (s.grant r op).maint = s.maint ∧
    (s.grant r op).active = s.active ∧ (s.grant r op).staging = s.staging ∧ (s.grant r op).copyA = s.copyA ∧
    (s.grant r op).copyB = s.copyB ∧ (s.grant r op).designation = s.designation ∧
    (s.grant r op).configDegraded = s.configDegraded ∧ (s.grant r op).activationDue = s.activationDue ∧
    (s.grant r op).freeze = s.freeze ∧ (s.grant r op).deferredFreeze = s.deferredFreeze ∧
    (s.grant r op).held = s.held ∧ (s.grant r op).pendingRead = s.pendingRead ∧ (s.grant r op).queue = s.queue ∧
    (s.grant r op).nextAcceptance = s.nextAcceptance ∧ (s.grant r op).mark = s.mark ∧
    (s.grant r op).frontResponse = s.frontResponse ∧ (s.grant r op).job = s.job ∧
    (s.grant r op).parked = s.parked ∧ (s.grant r op).readHeld = s.readHeld ∧
    (s.grant r op).headHeld = s.headHeld ∧ (s.grant r op).waitFront = s.waitFront ∧
    (s.grant r op).waitMaint = s.waitMaint ∧ (s.grant r op).retryCounter = s.retryCounter ∧
    (s.grant r op).response = s.response ∧ (s.grant r op).linkOut = s.linkOut ∧
    (s.grant r op).completion = s.completion ∧ (s.grant r op).ckptLatch = s.ckptLatch ∧
    (s.grant r op).log = s.log ∧ (s.grant r op).dropped = s.dropped ∧ (s.grant r op).alertMask = s.alertMask ∧
    (s.grant r op).freeCount = s.freeCount := by
  unfold State.grant
  all_goals try dsimp only
  all_goals repeat' split
  all_goals simp

@[simp] theorem State.requestPort_frame (s : State) (r : Requester) (op : RowOp) :
    (s.requestPort r op).recoveryMark = s.recoveryMark ∧
    (s.requestPort r op).pending = s.pending ∧ (s.requestPort r op).inReset = s.inReset ∧
    (s.requestPort r op).operating = s.operating ∧ (s.requestPort r op).pfw = s.pfw ∧
    (s.requestPort r op).ckptHigh = s.ckptHigh ∧ (s.requestPort r op).mem = s.mem ∧
    (s.requestPort r op).journal = s.journal ∧ (s.requestPort r op).epoch = s.epoch ∧
    (s.requestPort r op).anchorA = s.anchorA ∧ (s.requestPort r op).anchorB = s.anchorB ∧
    (s.requestPort r op).slots = s.slots ∧ (s.requestPort r op).slotHeaders = s.slotHeaders ∧
    (s.requestPort r op).index = s.index ∧ (s.requestPort r op).stack = s.stack ∧
    (s.requestPort r op).nextSequence = s.nextSequence ∧ (s.requestPort r op).exhausted = s.exhausted ∧
    (s.requestPort r op).headerMark = s.headerMark ∧ (s.requestPort r op).longOp = s.longOp ∧
    (s.requestPort r op).maint = s.maint ∧ (s.requestPort r op).active = s.active ∧
    (s.requestPort r op).staging = s.staging ∧ (s.requestPort r op).copyA = s.copyA ∧
    (s.requestPort r op).copyB = s.copyB ∧ (s.requestPort r op).designation = s.designation ∧
    (s.requestPort r op).configDegraded = s.configDegraded ∧
    (s.requestPort r op).activationDue = s.activationDue ∧ (s.requestPort r op).freeze = s.freeze ∧
    (s.requestPort r op).deferredFreeze = s.deferredFreeze ∧ (s.requestPort r op).held = s.held ∧
    (s.requestPort r op).pendingRead = s.pendingRead ∧ (s.requestPort r op).queue = s.queue ∧
    (s.requestPort r op).nextAcceptance = s.nextAcceptance ∧ (s.requestPort r op).mark = s.mark ∧
    (s.requestPort r op).frontResponse = s.frontResponse ∧ (s.requestPort r op).job = s.job ∧
    (s.requestPort r op).parked = s.parked ∧ (s.requestPort r op).readHeld = s.readHeld ∧
    (s.requestPort r op).headHeld = s.headHeld ∧ (s.requestPort r op).retryCounter = s.retryCounter ∧
    (s.requestPort r op).response = s.response ∧ (s.requestPort r op).linkOut = s.linkOut ∧
    (s.requestPort r op).completion = s.completion ∧ (s.requestPort r op).ckptLatch = s.ckptLatch ∧
    (s.requestPort r op).log = s.log ∧ (s.requestPort r op).dropped = s.dropped ∧
    (s.requestPort r op).alertMask = s.alertMask ∧ (s.requestPort r op).freeCount = s.freeCount := by
  unfold State.requestPort
  all_goals try dsimp only
  all_goals repeat' split
  all_goals simp

@[simp] theorem State.arbitrate_frame (s : State) :
    (s.arbitrate).recoveryMark = s.recoveryMark ∧
    (s.arbitrate).pending = s.pending ∧ (s.arbitrate).inReset = s.inReset ∧
    (s.arbitrate).operating = s.operating ∧ (s.arbitrate).pfw = s.pfw ∧ (s.arbitrate).ckptHigh = s.ckptHigh ∧
    (s.arbitrate).mem = s.mem ∧ (s.arbitrate).journal = s.journal ∧ (s.arbitrate).epoch = s.epoch ∧
    (s.arbitrate).anchorA = s.anchorA ∧ (s.arbitrate).anchorB = s.anchorB ∧ (s.arbitrate).slots = s.slots ∧
    (s.arbitrate).slotHeaders = s.slotHeaders ∧ (s.arbitrate).index = s.index ∧ (s.arbitrate).stack = s.stack ∧
    (s.arbitrate).nextSequence = s.nextSequence ∧ (s.arbitrate).exhausted = s.exhausted ∧
    (s.arbitrate).headerMark = s.headerMark ∧ (s.arbitrate).longOp = s.longOp ∧ (s.arbitrate).maint = s.maint ∧
    (s.arbitrate).active = s.active ∧ (s.arbitrate).staging = s.staging ∧ (s.arbitrate).copyA = s.copyA ∧
    (s.arbitrate).copyB = s.copyB ∧ (s.arbitrate).designation = s.designation ∧
    (s.arbitrate).configDegraded = s.configDegraded ∧ (s.arbitrate).activationDue = s.activationDue ∧
    (s.arbitrate).freeze = s.freeze ∧ (s.arbitrate).deferredFreeze = s.deferredFreeze ∧
    (s.arbitrate).held = s.held ∧ (s.arbitrate).pendingRead = s.pendingRead ∧ (s.arbitrate).queue = s.queue ∧
    (s.arbitrate).nextAcceptance = s.nextAcceptance ∧ (s.arbitrate).mark = s.mark ∧
    (s.arbitrate).frontResponse = s.frontResponse ∧ (s.arbitrate).job = s.job ∧ (s.arbitrate).parked = s.parked ∧
    (s.arbitrate).readHeld = s.readHeld ∧ (s.arbitrate).headHeld = s.headHeld ∧
    (s.arbitrate).retryCounter = s.retryCounter ∧ (s.arbitrate).response = s.response ∧
    (s.arbitrate).linkOut = s.linkOut ∧ (s.arbitrate).completion = s.completion ∧
    (s.arbitrate).ckptLatch = s.ckptLatch ∧ (s.arbitrate).log = s.log ∧ (s.arbitrate).dropped = s.dropped ∧
    (s.arbitrate).alertMask = s.alertMask ∧ (s.arbitrate).freeCount = s.freeCount := by
  unfold State.arbitrate
  all_goals try dsimp only
  all_goals repeat' split
  all_goals simp

@[simp] theorem State.runMaint_frame (s : State) (task : MaintTask) (op : RowOp) :
    (s.runMaint task op).recoveryMark = s.recoveryMark ∧
    (s.runMaint task op).pending = s.pending ∧ (s.runMaint task op).inReset = s.inReset ∧
    (s.runMaint task op).operating = s.operating ∧ (s.runMaint task op).pfw = s.pfw ∧
    (s.runMaint task op).ckptHigh = s.ckptHigh ∧ (s.runMaint task op).mem = s.mem ∧
    (s.runMaint task op).journal = s.journal ∧ (s.runMaint task op).epoch = s.epoch ∧
    (s.runMaint task op).anchorA = s.anchorA ∧ (s.runMaint task op).anchorB = s.anchorB ∧
    (s.runMaint task op).slots = s.slots ∧ (s.runMaint task op).slotHeaders = s.slotHeaders ∧
    (s.runMaint task op).index = s.index ∧ (s.runMaint task op).stack = s.stack ∧
    (s.runMaint task op).nextSequence = s.nextSequence ∧ (s.runMaint task op).exhausted = s.exhausted ∧
    (s.runMaint task op).headerMark = s.headerMark ∧ (s.runMaint task op).longOp = s.longOp ∧
    (s.runMaint task op).active = s.active ∧ (s.runMaint task op).staging = s.staging ∧
    (s.runMaint task op).copyA = s.copyA ∧ (s.runMaint task op).copyB = s.copyB ∧
    (s.runMaint task op).designation = s.designation ∧ (s.runMaint task op).configDegraded = s.configDegraded ∧
    (s.runMaint task op).activationDue = s.activationDue ∧ (s.runMaint task op).freeze = s.freeze ∧
    (s.runMaint task op).deferredFreeze = s.deferredFreeze ∧ (s.runMaint task op).held = s.held ∧
    (s.runMaint task op).pendingRead = s.pendingRead ∧ (s.runMaint task op).queue = s.queue ∧
    (s.runMaint task op).nextAcceptance = s.nextAcceptance ∧ (s.runMaint task op).mark = s.mark ∧
    (s.runMaint task op).frontResponse = s.frontResponse ∧ (s.runMaint task op).job = s.job ∧
    (s.runMaint task op).parked = s.parked ∧ (s.runMaint task op).readHeld = s.readHeld ∧
    (s.runMaint task op).headHeld = s.headHeld ∧ (s.runMaint task op).retryCounter = s.retryCounter ∧
    (s.runMaint task op).response = s.response ∧ (s.runMaint task op).linkOut = s.linkOut ∧
    (s.runMaint task op).completion = s.completion ∧ (s.runMaint task op).ckptLatch = s.ckptLatch ∧
    (s.runMaint task op).log = s.log ∧ (s.runMaint task op).dropped = s.dropped ∧
    (s.runMaint task op).alertMask = s.alertMask ∧ (s.runMaint task op).freeCount = s.freeCount := by
  unfold State.runMaint
  all_goals try dsimp only
  all_goals repeat' split
  all_goals simp

@[simp] theorem State.answer_frame (s : State) (okay : Bool) (beats : List Word) :
    (s.answer okay beats).recoveryMark = s.recoveryMark ∧
    (s.answer okay beats).pending = s.pending ∧ (s.answer okay beats).inReset = s.inReset ∧
    (s.answer okay beats).operating = s.operating ∧ (s.answer okay beats).pfw = s.pfw ∧
    (s.answer okay beats).ckptHigh = s.ckptHigh ∧ (s.answer okay beats).mem = s.mem ∧
    (s.answer okay beats).journal = s.journal ∧ (s.answer okay beats).epoch = s.epoch ∧
    (s.answer okay beats).anchorA = s.anchorA ∧ (s.answer okay beats).anchorB = s.anchorB ∧
    (s.answer okay beats).slots = s.slots ∧ (s.answer okay beats).slotHeaders = s.slotHeaders ∧
    (s.answer okay beats).index = s.index ∧ (s.answer okay beats).stack = s.stack ∧
    (s.answer okay beats).nextSequence = s.nextSequence ∧ (s.answer okay beats).exhausted = s.exhausted ∧
    (s.answer okay beats).headerMark = s.headerMark ∧ (s.answer okay beats).longOp = s.longOp ∧
    (s.answer okay beats).maint = s.maint ∧ (s.answer okay beats).active = s.active ∧
    (s.answer okay beats).staging = s.staging ∧ (s.answer okay beats).copyA = s.copyA ∧
    (s.answer okay beats).copyB = s.copyB ∧ (s.answer okay beats).designation = s.designation ∧
    (s.answer okay beats).configDegraded = s.configDegraded ∧
    (s.answer okay beats).activationDue = s.activationDue ∧ (s.answer okay beats).freeze = s.freeze ∧
    (s.answer okay beats).deferredFreeze = s.deferredFreeze ∧ (s.answer okay beats).held = s.held ∧
    (s.answer okay beats).pendingRead = s.pendingRead ∧ (s.answer okay beats).queue = s.queue ∧
    (s.answer okay beats).nextAcceptance = s.nextAcceptance ∧ (s.answer okay beats).mark = s.mark ∧
    (s.answer okay beats).job = s.job ∧ (s.answer okay beats).parked = s.parked ∧
    (s.answer okay beats).readHeld = s.readHeld ∧ (s.answer okay beats).headHeld = s.headHeld ∧
    (s.answer okay beats).port = s.port ∧ (s.answer okay beats).waitFront = s.waitFront ∧
    (s.answer okay beats).waitMaint = s.waitMaint ∧ (s.answer okay beats).lastServed = s.lastServed ∧
    (s.answer okay beats).retryCounter = s.retryCounter ∧ (s.answer okay beats).response = s.response ∧
    (s.answer okay beats).linkOut = s.linkOut ∧ (s.answer okay beats).completion = s.completion ∧
    (s.answer okay beats).ckptLatch = s.ckptLatch ∧ (s.answer okay beats).log = s.log ∧
    (s.answer okay beats).dropped = s.dropped ∧ (s.answer okay beats).alertMask = s.alertMask ∧
    (s.answer okay beats).freeCount = s.freeCount := by
  unfold State.answer
  all_goals try dsimp only
  all_goals repeat' split
  all_goals simp

@[simp] theorem State.answerRefused_frame (s : State) (r : Request) :
    (s.answerRefused r).recoveryMark = s.recoveryMark ∧
    (s.answerRefused r).pending = s.pending ∧ (s.answerRefused r).inReset = s.inReset ∧
    (s.answerRefused r).operating = s.operating ∧ (s.answerRefused r).pfw = s.pfw ∧
    (s.answerRefused r).ckptHigh = s.ckptHigh ∧ (s.answerRefused r).mem = s.mem ∧
    (s.answerRefused r).journal = s.journal ∧ (s.answerRefused r).epoch = s.epoch ∧
    (s.answerRefused r).anchorA = s.anchorA ∧ (s.answerRefused r).anchorB = s.anchorB ∧
    (s.answerRefused r).slots = s.slots ∧ (s.answerRefused r).slotHeaders = s.slotHeaders ∧
    (s.answerRefused r).index = s.index ∧ (s.answerRefused r).stack = s.stack ∧
    (s.answerRefused r).nextSequence = s.nextSequence ∧ (s.answerRefused r).exhausted = s.exhausted ∧
    (s.answerRefused r).headerMark = s.headerMark ∧ (s.answerRefused r).longOp = s.longOp ∧
    (s.answerRefused r).maint = s.maint ∧ (s.answerRefused r).active = s.active ∧
    (s.answerRefused r).staging = s.staging ∧ (s.answerRefused r).copyA = s.copyA ∧
    (s.answerRefused r).copyB = s.copyB ∧ (s.answerRefused r).designation = s.designation ∧
    (s.answerRefused r).configDegraded = s.configDegraded ∧ (s.answerRefused r).activationDue = s.activationDue ∧
    (s.answerRefused r).freeze = s.freeze ∧ (s.answerRefused r).deferredFreeze = s.deferredFreeze ∧
    (s.answerRefused r).held = s.held ∧ (s.answerRefused r).pendingRead = s.pendingRead ∧
    (s.answerRefused r).queue = s.queue ∧ (s.answerRefused r).nextAcceptance = s.nextAcceptance ∧
    (s.answerRefused r).mark = s.mark ∧ (s.answerRefused r).job = s.job ∧ (s.answerRefused r).parked = s.parked ∧
    (s.answerRefused r).readHeld = s.readHeld ∧ (s.answerRefused r).headHeld = s.headHeld ∧
    (s.answerRefused r).port = s.port ∧ (s.answerRefused r).waitFront = s.waitFront ∧
    (s.answerRefused r).waitMaint = s.waitMaint ∧ (s.answerRefused r).lastServed = s.lastServed ∧
    (s.answerRefused r).retryCounter = s.retryCounter ∧ (s.answerRefused r).response = s.response ∧
    (s.answerRefused r).linkOut = s.linkOut ∧ (s.answerRefused r).completion = s.completion ∧
    (s.answerRefused r).ckptLatch = s.ckptLatch ∧ (s.answerRefused r).log = s.log ∧
    (s.answerRefused r).dropped = s.dropped ∧ (s.answerRefused r).alertMask = s.alertMask ∧
    (s.answerRefused r).freeCount = s.freeCount := by
  unfold State.answerRefused
  all_goals try dsimp only
  all_goals repeat' split
  all_goals simp

@[simp] theorem State.acceptWrite_frame (s : State) (address : Address) (beats : List Beat) :
    (s.acceptWrite address beats).recoveryMark = s.recoveryMark ∧
    (s.acceptWrite address beats).pending = s.pending ∧ (s.acceptWrite address beats).inReset = s.inReset ∧
    (s.acceptWrite address beats).operating = s.operating ∧ (s.acceptWrite address beats).pfw = s.pfw ∧
    (s.acceptWrite address beats).ckptHigh = s.ckptHigh ∧ (s.acceptWrite address beats).mem = s.mem ∧
    (s.acceptWrite address beats).journal = s.journal ∧ (s.acceptWrite address beats).epoch = s.epoch ∧
    (s.acceptWrite address beats).anchorA = s.anchorA ∧ (s.acceptWrite address beats).anchorB = s.anchorB ∧
    (s.acceptWrite address beats).slots = s.slots ∧ (s.acceptWrite address beats).slotHeaders = s.slotHeaders ∧
    (s.acceptWrite address beats).index = s.index ∧ (s.acceptWrite address beats).stack = s.stack ∧
    (s.acceptWrite address beats).nextSequence = s.nextSequence ∧
    (s.acceptWrite address beats).exhausted = s.exhausted ∧
    (s.acceptWrite address beats).headerMark = s.headerMark ∧ (s.acceptWrite address beats).longOp = s.longOp ∧
    (s.acceptWrite address beats).maint = s.maint ∧ (s.acceptWrite address beats).active = s.active ∧
    (s.acceptWrite address beats).staging = s.staging ∧ (s.acceptWrite address beats).copyA = s.copyA ∧
    (s.acceptWrite address beats).copyB = s.copyB ∧ (s.acceptWrite address beats).designation = s.designation ∧
    (s.acceptWrite address beats).configDegraded = s.configDegraded ∧
    (s.acceptWrite address beats).activationDue = s.activationDue ∧
    (s.acceptWrite address beats).freeze = s.freeze ∧
    (s.acceptWrite address beats).deferredFreeze = s.deferredFreeze ∧
    (s.acceptWrite address beats).held = s.held ∧ (s.acceptWrite address beats).pendingRead = s.pendingRead ∧
    (s.acceptWrite address beats).mark = s.mark ∧ (s.acceptWrite address beats).job = s.job ∧
    (s.acceptWrite address beats).parked = s.parked ∧ (s.acceptWrite address beats).readHeld = s.readHeld ∧
    (s.acceptWrite address beats).headHeld = s.headHeld ∧ (s.acceptWrite address beats).port = s.port ∧
    (s.acceptWrite address beats).waitFront = s.waitFront ∧
    (s.acceptWrite address beats).waitMaint = s.waitMaint ∧
    (s.acceptWrite address beats).lastServed = s.lastServed ∧
    (s.acceptWrite address beats).retryCounter = s.retryCounter ∧
    (s.acceptWrite address beats).response = s.response ∧ (s.acceptWrite address beats).linkOut = s.linkOut ∧
    (s.acceptWrite address beats).completion = s.completion ∧
    (s.acceptWrite address beats).ckptLatch = s.ckptLatch ∧ (s.acceptWrite address beats).log = s.log ∧
    (s.acceptWrite address beats).dropped = s.dropped ∧ (s.acceptWrite address beats).alertMask = s.alertMask ∧
    (s.acceptWrite address beats).freeCount = s.freeCount := by
  unfold State.acceptWrite
  all_goals try dsimp only
  all_goals repeat' split
  all_goals simp

@[simp] theorem State.acceptHeldWrite_frame (s : State) :
    (s.acceptHeldWrite).recoveryMark = s.recoveryMark ∧
    (s.acceptHeldWrite).pending = s.pending ∧ (s.acceptHeldWrite).inReset = s.inReset ∧
    (s.acceptHeldWrite).operating = s.operating ∧ (s.acceptHeldWrite).pfw = s.pfw ∧
    (s.acceptHeldWrite).ckptHigh = s.ckptHigh ∧ (s.acceptHeldWrite).mem = s.mem ∧
    (s.acceptHeldWrite).journal = s.journal ∧ (s.acceptHeldWrite).epoch = s.epoch ∧
    (s.acceptHeldWrite).anchorA = s.anchorA ∧ (s.acceptHeldWrite).anchorB = s.anchorB ∧
    (s.acceptHeldWrite).slots = s.slots ∧ (s.acceptHeldWrite).slotHeaders = s.slotHeaders ∧
    (s.acceptHeldWrite).index = s.index ∧ (s.acceptHeldWrite).stack = s.stack ∧
    (s.acceptHeldWrite).nextSequence = s.nextSequence ∧ (s.acceptHeldWrite).exhausted = s.exhausted ∧
    (s.acceptHeldWrite).headerMark = s.headerMark ∧ (s.acceptHeldWrite).longOp = s.longOp ∧
    (s.acceptHeldWrite).maint = s.maint ∧ (s.acceptHeldWrite).active = s.active ∧
    (s.acceptHeldWrite).staging = s.staging ∧ (s.acceptHeldWrite).copyA = s.copyA ∧
    (s.acceptHeldWrite).copyB = s.copyB ∧ (s.acceptHeldWrite).designation = s.designation ∧
    (s.acceptHeldWrite).configDegraded = s.configDegraded ∧ (s.acceptHeldWrite).activationDue = s.activationDue ∧
    (s.acceptHeldWrite).freeze = s.freeze ∧ (s.acceptHeldWrite).deferredFreeze = s.deferredFreeze ∧
    (s.acceptHeldWrite).pendingRead = s.pendingRead ∧ (s.acceptHeldWrite).mark = s.mark ∧
    (s.acceptHeldWrite).job = s.job ∧ (s.acceptHeldWrite).parked = s.parked ∧
    (s.acceptHeldWrite).readHeld = s.readHeld ∧ (s.acceptHeldWrite).headHeld = s.headHeld ∧
    (s.acceptHeldWrite).port = s.port ∧ (s.acceptHeldWrite).waitFront = s.waitFront ∧
    (s.acceptHeldWrite).waitMaint = s.waitMaint ∧ (s.acceptHeldWrite).lastServed = s.lastServed ∧
    (s.acceptHeldWrite).retryCounter = s.retryCounter ∧ (s.acceptHeldWrite).response = s.response ∧
    (s.acceptHeldWrite).linkOut = s.linkOut ∧ (s.acceptHeldWrite).completion = s.completion ∧
    (s.acceptHeldWrite).ckptLatch = s.ckptLatch ∧ (s.acceptHeldWrite).log = s.log ∧
    (s.acceptHeldWrite).dropped = s.dropped ∧ (s.acceptHeldWrite).alertMask = s.alertMask ∧
    (s.acceptHeldWrite).freeCount = s.freeCount := by
  unfold State.acceptHeldWrite
  all_goals try dsimp only
  all_goals repeat' split
  all_goals simp

@[simp] theorem State.takeIn_frame (s : State) (r : Request) :
    (s.takeIn r).recoveryMark = s.recoveryMark ∧
    (s.takeIn r).pending = s.pending ∧ (s.takeIn r).inReset = s.inReset ∧ (s.takeIn r).operating = s.operating ∧
    (s.takeIn r).pfw = s.pfw ∧ (s.takeIn r).ckptHigh = s.ckptHigh ∧ (s.takeIn r).mem = s.mem ∧
    (s.takeIn r).journal = s.journal ∧ (s.takeIn r).epoch = s.epoch ∧ (s.takeIn r).anchorA = s.anchorA ∧
    (s.takeIn r).anchorB = s.anchorB ∧ (s.takeIn r).slots = s.slots ∧ (s.takeIn r).slotHeaders = s.slotHeaders ∧
    (s.takeIn r).index = s.index ∧ (s.takeIn r).stack = s.stack ∧ (s.takeIn r).nextSequence = s.nextSequence ∧
    (s.takeIn r).exhausted = s.exhausted ∧ (s.takeIn r).headerMark = s.headerMark ∧
    (s.takeIn r).longOp = s.longOp ∧ (s.takeIn r).maint = s.maint ∧ (s.takeIn r).active = s.active ∧
    (s.takeIn r).staging = s.staging ∧ (s.takeIn r).copyA = s.copyA ∧ (s.takeIn r).copyB = s.copyB ∧
    (s.takeIn r).designation = s.designation ∧ (s.takeIn r).configDegraded = s.configDegraded ∧
    (s.takeIn r).activationDue = s.activationDue ∧ (s.takeIn r).freeze = s.freeze ∧
    (s.takeIn r).deferredFreeze = s.deferredFreeze ∧ (s.takeIn r).mark = s.mark ∧ (s.takeIn r).job = s.job ∧
    (s.takeIn r).parked = s.parked ∧ (s.takeIn r).headHeld = s.headHeld ∧ (s.takeIn r).port = s.port ∧
    (s.takeIn r).waitFront = s.waitFront ∧ (s.takeIn r).waitMaint = s.waitMaint ∧
    (s.takeIn r).lastServed = s.lastServed ∧ (s.takeIn r).retryCounter = s.retryCounter ∧
    (s.takeIn r).response = s.response ∧ (s.takeIn r).linkOut = s.linkOut ∧
    (s.takeIn r).completion = s.completion ∧ (s.takeIn r).ckptLatch = s.ckptLatch ∧
    (s.takeIn r).alertMask = s.alertMask ∧ (s.takeIn r).freeCount = s.freeCount := by
  unfold State.takeIn
  all_goals try dsimp only
  all_goals repeat' split
  all_goals simp

@[simp] theorem State.takeInHeld_frame (s : State) :
    (s.takeInHeld).recoveryMark = s.recoveryMark ∧
    (s.takeInHeld).pending = s.pending ∧ (s.takeInHeld).inReset = s.inReset ∧
    (s.takeInHeld).operating = s.operating ∧ (s.takeInHeld).pfw = s.pfw ∧ (s.takeInHeld).ckptHigh = s.ckptHigh ∧
    (s.takeInHeld).mem = s.mem ∧ (s.takeInHeld).journal = s.journal ∧ (s.takeInHeld).epoch = s.epoch ∧
    (s.takeInHeld).anchorA = s.anchorA ∧ (s.takeInHeld).anchorB = s.anchorB ∧ (s.takeInHeld).slots = s.slots ∧
    (s.takeInHeld).slotHeaders = s.slotHeaders ∧ (s.takeInHeld).index = s.index ∧ (s.takeInHeld).stack = s.stack ∧
    (s.takeInHeld).nextSequence = s.nextSequence ∧ (s.takeInHeld).exhausted = s.exhausted ∧
    (s.takeInHeld).headerMark = s.headerMark ∧ (s.takeInHeld).longOp = s.longOp ∧ (s.takeInHeld).maint = s.maint ∧
    (s.takeInHeld).active = s.active ∧ (s.takeInHeld).staging = s.staging ∧ (s.takeInHeld).copyA = s.copyA ∧
    (s.takeInHeld).copyB = s.copyB ∧ (s.takeInHeld).designation = s.designation ∧
    (s.takeInHeld).configDegraded = s.configDegraded ∧ (s.takeInHeld).activationDue = s.activationDue ∧
    (s.takeInHeld).freeze = s.freeze ∧ (s.takeInHeld).deferredFreeze = s.deferredFreeze ∧
    (s.takeInHeld).mark = s.mark ∧ (s.takeInHeld).job = s.job ∧ (s.takeInHeld).parked = s.parked ∧
    (s.takeInHeld).headHeld = s.headHeld ∧ (s.takeInHeld).port = s.port ∧ (s.takeInHeld).waitFront = s.waitFront ∧
    (s.takeInHeld).waitMaint = s.waitMaint ∧ (s.takeInHeld).lastServed = s.lastServed ∧
    (s.takeInHeld).retryCounter = s.retryCounter ∧ (s.takeInHeld).response = s.response ∧
    (s.takeInHeld).linkOut = s.linkOut ∧ (s.takeInHeld).completion = s.completion ∧
    (s.takeInHeld).ckptLatch = s.ckptLatch ∧ (s.takeInHeld).alertMask = s.alertMask ∧
    (s.takeInHeld).freeCount = s.freeCount := by
  unfold State.takeInHeld
  all_goals try dsimp only
  all_goals repeat' split
  all_goals simp

@[simp] theorem State.present_frame (s : State) (r : Request) :
    (s.present r).recoveryMark = s.recoveryMark ∧
    (s.present r).pending = s.pending ∧ (s.present r).inReset = s.inReset ∧
    (s.present r).operating = s.operating ∧ (s.present r).pfw = s.pfw ∧ (s.present r).ckptHigh = s.ckptHigh ∧
    (s.present r).mem = s.mem ∧ (s.present r).journal = s.journal ∧ (s.present r).epoch = s.epoch ∧
    (s.present r).anchorA = s.anchorA ∧ (s.present r).anchorB = s.anchorB ∧ (s.present r).slots = s.slots ∧
    (s.present r).slotHeaders = s.slotHeaders ∧ (s.present r).index = s.index ∧ (s.present r).stack = s.stack ∧
    (s.present r).nextSequence = s.nextSequence ∧ (s.present r).exhausted = s.exhausted ∧
    (s.present r).headerMark = s.headerMark ∧ (s.present r).longOp = s.longOp ∧ (s.present r).maint = s.maint ∧
    (s.present r).active = s.active ∧ (s.present r).staging = s.staging ∧ (s.present r).copyA = s.copyA ∧
    (s.present r).copyB = s.copyB ∧ (s.present r).designation = s.designation ∧
    (s.present r).configDegraded = s.configDegraded ∧ (s.present r).activationDue = s.activationDue ∧
    (s.present r).freeze = s.freeze ∧ (s.present r).deferredFreeze = s.deferredFreeze ∧
    (s.present r).mark = s.mark ∧ (s.present r).job = s.job ∧ (s.present r).parked = s.parked ∧
    (s.present r).headHeld = s.headHeld ∧ (s.present r).port = s.port ∧ (s.present r).waitFront = s.waitFront ∧
    (s.present r).waitMaint = s.waitMaint ∧ (s.present r).lastServed = s.lastServed ∧
    (s.present r).retryCounter = s.retryCounter ∧ (s.present r).response = s.response ∧
    (s.present r).linkOut = s.linkOut ∧ (s.present r).completion = s.completion ∧
    (s.present r).ckptLatch = s.ckptLatch ∧ (s.present r).alertMask = s.alertMask ∧
    (s.present r).freeCount = s.freeCount := by
  unfold State.present
  all_goals try dsimp only
  all_goals repeat' split
  all_goals simp

@[simp] theorem State.retireHead_frame (s : State) (okay : Bool) :
    (s.retireHead okay).recoveryMark = s.recoveryMark ∧
    (s.retireHead okay).pending = s.pending ∧ (s.retireHead okay).inReset = s.inReset ∧
    (s.retireHead okay).operating = s.operating ∧ (s.retireHead okay).pfw = s.pfw ∧
    (s.retireHead okay).ckptHigh = s.ckptHigh ∧ (s.retireHead okay).mem = s.mem ∧
    (s.retireHead okay).journal = s.journal ∧ (s.retireHead okay).epoch = s.epoch ∧
    (s.retireHead okay).anchorA = s.anchorA ∧ (s.retireHead okay).anchorB = s.anchorB ∧
    (s.retireHead okay).slots = s.slots ∧ (s.retireHead okay).slotHeaders = s.slotHeaders ∧
    (s.retireHead okay).index = s.index ∧ (s.retireHead okay).stack = s.stack ∧
    (s.retireHead okay).nextSequence = s.nextSequence ∧ (s.retireHead okay).exhausted = s.exhausted ∧
    (s.retireHead okay).headerMark = s.headerMark ∧ (s.retireHead okay).longOp = s.longOp ∧
    (s.retireHead okay).maint = s.maint ∧ (s.retireHead okay).active = s.active ∧
    (s.retireHead okay).staging = s.staging ∧ (s.retireHead okay).copyA = s.copyA ∧
    (s.retireHead okay).copyB = s.copyB ∧ (s.retireHead okay).designation = s.designation ∧
    (s.retireHead okay).configDegraded = s.configDegraded ∧ (s.retireHead okay).activationDue = s.activationDue ∧
    (s.retireHead okay).freeze = s.freeze ∧ (s.retireHead okay).deferredFreeze = s.deferredFreeze ∧
    (s.retireHead okay).pendingRead = s.pendingRead ∧ (s.retireHead okay).mark = s.mark ∧
    (s.retireHead okay).job = s.job ∧ (s.retireHead okay).parked = s.parked ∧
    (s.retireHead okay).readHeld = s.readHeld ∧ (s.retireHead okay).port = s.port ∧
    (s.retireHead okay).waitFront = s.waitFront ∧ (s.retireHead okay).waitMaint = s.waitMaint ∧
    (s.retireHead okay).lastServed = s.lastServed ∧ (s.retireHead okay).retryCounter = s.retryCounter ∧
    (s.retireHead okay).response = s.response ∧ (s.retireHead okay).linkOut = s.linkOut ∧
    (s.retireHead okay).completion = s.completion ∧ (s.retireHead okay).ckptLatch = s.ckptLatch ∧
    (s.retireHead okay).log = s.log ∧ (s.retireHead okay).dropped = s.dropped ∧
    (s.retireHead okay).alertMask = s.alertMask ∧ (s.retireHead okay).freeCount = s.freeCount := by
  unfold State.retireHead
  all_goals try dsimp only
  all_goals repeat' split
  all_goals simp

@[simp] theorem State.count_frame (s : State) (f : LongOp → LongOp) :
    (s.count f).recoveryMark = s.recoveryMark ∧
    (s.count f).pending = s.pending ∧ (s.count f).inReset = s.inReset ∧ (s.count f).operating = s.operating ∧
    (s.count f).pfw = s.pfw ∧ (s.count f).ckptHigh = s.ckptHigh ∧ (s.count f).mem = s.mem ∧
    (s.count f).journal = s.journal ∧ (s.count f).epoch = s.epoch ∧ (s.count f).anchorA = s.anchorA ∧
    (s.count f).anchorB = s.anchorB ∧ (s.count f).slots = s.slots ∧ (s.count f).slotHeaders = s.slotHeaders ∧
    (s.count f).index = s.index ∧ (s.count f).stack = s.stack ∧ (s.count f).nextSequence = s.nextSequence ∧
    (s.count f).exhausted = s.exhausted ∧ (s.count f).headerMark = s.headerMark ∧ (s.count f).maint = s.maint ∧
    (s.count f).active = s.active ∧ (s.count f).staging = s.staging ∧ (s.count f).copyA = s.copyA ∧
    (s.count f).copyB = s.copyB ∧ (s.count f).designation = s.designation ∧
    (s.count f).configDegraded = s.configDegraded ∧ (s.count f).activationDue = s.activationDue ∧
    (s.count f).freeze = s.freeze ∧ (s.count f).deferredFreeze = s.deferredFreeze ∧ (s.count f).held = s.held ∧
    (s.count f).pendingRead = s.pendingRead ∧ (s.count f).queue = s.queue ∧
    (s.count f).nextAcceptance = s.nextAcceptance ∧ (s.count f).mark = s.mark ∧
    (s.count f).frontResponse = s.frontResponse ∧ (s.count f).job = s.job ∧ (s.count f).parked = s.parked ∧
    (s.count f).readHeld = s.readHeld ∧ (s.count f).headHeld = s.headHeld ∧ (s.count f).port = s.port ∧
    (s.count f).waitFront = s.waitFront ∧ (s.count f).waitMaint = s.waitMaint ∧
    (s.count f).lastServed = s.lastServed ∧ (s.count f).retryCounter = s.retryCounter ∧
    (s.count f).response = s.response ∧ (s.count f).linkOut = s.linkOut ∧ (s.count f).completion = s.completion ∧
    (s.count f).ckptLatch = s.ckptLatch ∧ (s.count f).log = s.log ∧ (s.count f).dropped = s.dropped ∧
    (s.count f).alertMask = s.alertMask ∧ (s.count f).freeCount = s.freeCount := by
  unfold State.count
  all_goals try dsimp only
  all_goals repeat' split
  all_goals simp

@[simp] theorem State.discard_frame (s : State) (p : Entry → Bool) :
    (s.discard p).recoveryMark = s.recoveryMark ∧
    (s.discard p).pending = s.pending ∧ (s.discard p).inReset = s.inReset ∧
    (s.discard p).operating = s.operating ∧ (s.discard p).pfw = s.pfw ∧ (s.discard p).ckptHigh = s.ckptHigh ∧
    (s.discard p).mem = s.mem ∧ (s.discard p).journal = s.journal ∧ (s.discard p).epoch = s.epoch ∧
    (s.discard p).anchorA = s.anchorA ∧ (s.discard p).anchorB = s.anchorB ∧ (s.discard p).slots = s.slots ∧
    (s.discard p).slotHeaders = s.slotHeaders ∧ (s.discard p).index = s.index ∧ (s.discard p).stack = s.stack ∧
    (s.discard p).nextSequence = s.nextSequence ∧ (s.discard p).exhausted = s.exhausted ∧
    (s.discard p).headerMark = s.headerMark ∧ (s.discard p).maint = s.maint ∧ (s.discard p).active = s.active ∧
    (s.discard p).staging = s.staging ∧ (s.discard p).copyA = s.copyA ∧ (s.discard p).copyB = s.copyB ∧
    (s.discard p).designation = s.designation ∧ (s.discard p).configDegraded = s.configDegraded ∧
    (s.discard p).activationDue = s.activationDue ∧ (s.discard p).freeze = s.freeze ∧
    (s.discard p).deferredFreeze = s.deferredFreeze ∧ (s.discard p).pendingRead = s.pendingRead ∧
    (s.discard p).mark = s.mark ∧ (s.discard p).job = s.job ∧ (s.discard p).readHeld = s.readHeld ∧
    (s.discard p).port = s.port ∧ (s.discard p).waitFront = s.waitFront ∧ (s.discard p).waitMaint = s.waitMaint ∧
    (s.discard p).lastServed = s.lastServed ∧ (s.discard p).retryCounter = s.retryCounter ∧
    (s.discard p).response = s.response ∧ (s.discard p).linkOut = s.linkOut ∧
    (s.discard p).completion = s.completion ∧ (s.discard p).ckptLatch = s.ckptLatch ∧ (s.discard p).log = s.log ∧
    (s.discard p).dropped = s.dropped ∧ (s.discard p).alertMask = s.alertMask ∧
    (s.discard p).freeCount = s.freeCount := by
  unfold State.discard
  all_goals try dsimp only
  all_goals repeat' split
  all_goals simp

@[simp] theorem State.discardWaitingHead_frame (s : State) :
    (s.discardWaitingHead).recoveryMark = s.recoveryMark ∧
    (s.discardWaitingHead).pending = s.pending ∧ (s.discardWaitingHead).inReset = s.inReset ∧
    (s.discardWaitingHead).operating = s.operating ∧ (s.discardWaitingHead).pfw = s.pfw ∧
    (s.discardWaitingHead).ckptHigh = s.ckptHigh ∧ (s.discardWaitingHead).mem = s.mem ∧
    (s.discardWaitingHead).journal = s.journal ∧ (s.discardWaitingHead).epoch = s.epoch ∧
    (s.discardWaitingHead).anchorA = s.anchorA ∧ (s.discardWaitingHead).anchorB = s.anchorB ∧
    (s.discardWaitingHead).slots = s.slots ∧ (s.discardWaitingHead).slotHeaders = s.slotHeaders ∧
    (s.discardWaitingHead).index = s.index ∧ (s.discardWaitingHead).stack = s.stack ∧
    (s.discardWaitingHead).nextSequence = s.nextSequence ∧ (s.discardWaitingHead).exhausted = s.exhausted ∧
    (s.discardWaitingHead).headerMark = s.headerMark ∧ (s.discardWaitingHead).maint = s.maint ∧
    (s.discardWaitingHead).active = s.active ∧ (s.discardWaitingHead).staging = s.staging ∧
    (s.discardWaitingHead).copyA = s.copyA ∧ (s.discardWaitingHead).copyB = s.copyB ∧
    (s.discardWaitingHead).designation = s.designation ∧
    (s.discardWaitingHead).configDegraded = s.configDegraded ∧
    (s.discardWaitingHead).activationDue = s.activationDue ∧ (s.discardWaitingHead).freeze = s.freeze ∧
    (s.discardWaitingHead).deferredFreeze = s.deferredFreeze ∧
    (s.discardWaitingHead).pendingRead = s.pendingRead ∧ (s.discardWaitingHead).mark = s.mark ∧
    (s.discardWaitingHead).job = s.job ∧ (s.discardWaitingHead).readHeld = s.readHeld ∧
    (s.discardWaitingHead).port = s.port ∧ (s.discardWaitingHead).waitFront = s.waitFront ∧
    (s.discardWaitingHead).waitMaint = s.waitMaint ∧ (s.discardWaitingHead).lastServed = s.lastServed ∧
    (s.discardWaitingHead).retryCounter = s.retryCounter ∧ (s.discardWaitingHead).response = s.response ∧
    (s.discardWaitingHead).linkOut = s.linkOut ∧ (s.discardWaitingHead).completion = s.completion ∧
    (s.discardWaitingHead).ckptLatch = s.ckptLatch ∧ (s.discardWaitingHead).log = s.log ∧
    (s.discardWaitingHead).dropped = s.dropped ∧ (s.discardWaitingHead).alertMask = s.alertMask ∧
    (s.discardWaitingHead).freeCount = s.freeCount := by
  unfold State.discardWaitingHead
  all_goals try dsimp only
  all_goals repeat' split
  all_goals simp

@[simp] theorem State.carry_frame (s : State) :
    (s.carry).recoveryMark = s.recoveryMark ∧
    (s.carry).pending = s.pending ∧ (s.carry).inReset = s.inReset ∧ (s.carry).operating = s.operating ∧
    (s.carry).pfw = s.pfw ∧ (s.carry).ckptHigh = s.ckptHigh ∧ (s.carry).mem = s.mem ∧
    (s.carry).journal = s.journal ∧ (s.carry).epoch = s.epoch ∧ (s.carry).anchorA = s.anchorA ∧
    (s.carry).anchorB = s.anchorB ∧ (s.carry).slots = s.slots ∧ (s.carry).slotHeaders = s.slotHeaders ∧
    (s.carry).index = s.index ∧ (s.carry).stack = s.stack ∧ (s.carry).nextSequence = s.nextSequence ∧
    (s.carry).exhausted = s.exhausted ∧ (s.carry).headerMark = s.headerMark ∧ (s.carry).maint = s.maint ∧
    (s.carry).active = s.active ∧ (s.carry).staging = s.staging ∧ (s.carry).copyA = s.copyA ∧
    (s.carry).copyB = s.copyB ∧ (s.carry).designation = s.designation ∧
    (s.carry).configDegraded = s.configDegraded ∧ (s.carry).activationDue = s.activationDue ∧
    (s.carry).freeze = s.freeze ∧ (s.carry).deferredFreeze = s.deferredFreeze ∧ (s.carry).held = s.held ∧
    (s.carry).pendingRead = s.pendingRead ∧ (s.carry).nextAcceptance = s.nextAcceptance ∧
    (s.carry).frontResponse = s.frontResponse ∧ (s.carry).job = s.job ∧ (s.carry).readHeld = s.readHeld ∧
    (s.carry).port = s.port ∧ (s.carry).waitFront = s.waitFront ∧ (s.carry).waitMaint = s.waitMaint ∧
    (s.carry).lastServed = s.lastServed ∧ (s.carry).retryCounter = s.retryCounter ∧
    (s.carry).response = s.response ∧ (s.carry).linkOut = s.linkOut ∧ (s.carry).completion = s.completion ∧
    (s.carry).ckptLatch = s.ckptLatch ∧ (s.carry).log = s.log ∧ (s.carry).dropped = s.dropped ∧
    (s.carry).alertMask = s.alertMask ∧ (s.carry).freeCount = s.freeCount := by
  unfold State.carry
  all_goals try dsimp only
  all_goals repeat' split
  all_goals simp

@[simp] theorem State.dropQueue_frame (s : State) :
    (s.dropQueue).recoveryMark = s.recoveryMark ∧
    (s.dropQueue).pending = s.pending ∧ (s.dropQueue).inReset = s.inReset ∧
    (s.dropQueue).operating = s.operating ∧ (s.dropQueue).pfw = s.pfw ∧ (s.dropQueue).ckptHigh = s.ckptHigh ∧
    (s.dropQueue).mem = s.mem ∧ (s.dropQueue).journal = s.journal ∧ (s.dropQueue).epoch = s.epoch ∧
    (s.dropQueue).anchorA = s.anchorA ∧ (s.dropQueue).anchorB = s.anchorB ∧ (s.dropQueue).slots = s.slots ∧
    (s.dropQueue).slotHeaders = s.slotHeaders ∧ (s.dropQueue).index = s.index ∧ (s.dropQueue).stack = s.stack ∧
    (s.dropQueue).nextSequence = s.nextSequence ∧ (s.dropQueue).exhausted = s.exhausted ∧
    (s.dropQueue).headerMark = s.headerMark ∧ (s.dropQueue).longOp = s.longOp ∧ (s.dropQueue).maint = s.maint ∧
    (s.dropQueue).active = s.active ∧ (s.dropQueue).staging = s.staging ∧ (s.dropQueue).copyA = s.copyA ∧
    (s.dropQueue).copyB = s.copyB ∧ (s.dropQueue).designation = s.designation ∧
    (s.dropQueue).configDegraded = s.configDegraded ∧ (s.dropQueue).activationDue = s.activationDue ∧
    (s.dropQueue).freeze = s.freeze ∧ (s.dropQueue).deferredFreeze = s.deferredFreeze ∧
    (s.dropQueue).held = s.held ∧ (s.dropQueue).pendingRead = s.pendingRead ∧
    (s.dropQueue).nextAcceptance = s.nextAcceptance ∧ (s.dropQueue).mark = s.mark ∧ (s.dropQueue).job = s.job ∧
    (s.dropQueue).readHeld = s.readHeld ∧ (s.dropQueue).port = s.port ∧ (s.dropQueue).waitFront = s.waitFront ∧
    (s.dropQueue).waitMaint = s.waitMaint ∧ (s.dropQueue).lastServed = s.lastServed ∧
    (s.dropQueue).retryCounter = s.retryCounter ∧ (s.dropQueue).response = s.response ∧
    (s.dropQueue).linkOut = s.linkOut ∧ (s.dropQueue).completion = s.completion ∧
    (s.dropQueue).ckptLatch = s.ckptLatch ∧ (s.dropQueue).alertMask = s.alertMask ∧
    (s.dropQueue).freeCount = s.freeCount := by
  unfold State.dropQueue
  all_goals try dsimp only
  all_goals repeat' split
  all_goals simp

@[simp] theorem State.dropIfWaiting_frame (s : State) :
    (s.dropIfWaiting).recoveryMark = s.recoveryMark ∧
    (s.dropIfWaiting).pending = s.pending ∧ (s.dropIfWaiting).inReset = s.inReset ∧
    (s.dropIfWaiting).operating = s.operating ∧ (s.dropIfWaiting).pfw = s.pfw ∧
    (s.dropIfWaiting).ckptHigh = s.ckptHigh ∧ (s.dropIfWaiting).mem = s.mem ∧
    (s.dropIfWaiting).journal = s.journal ∧ (s.dropIfWaiting).epoch = s.epoch ∧
    (s.dropIfWaiting).anchorA = s.anchorA ∧ (s.dropIfWaiting).anchorB = s.anchorB ∧
    (s.dropIfWaiting).slots = s.slots ∧ (s.dropIfWaiting).slotHeaders = s.slotHeaders ∧
    (s.dropIfWaiting).index = s.index ∧ (s.dropIfWaiting).stack = s.stack ∧
    (s.dropIfWaiting).nextSequence = s.nextSequence ∧ (s.dropIfWaiting).exhausted = s.exhausted ∧
    (s.dropIfWaiting).headerMark = s.headerMark ∧ (s.dropIfWaiting).longOp = s.longOp ∧
    (s.dropIfWaiting).maint = s.maint ∧ (s.dropIfWaiting).active = s.active ∧
    (s.dropIfWaiting).staging = s.staging ∧ (s.dropIfWaiting).copyA = s.copyA ∧
    (s.dropIfWaiting).copyB = s.copyB ∧ (s.dropIfWaiting).designation = s.designation ∧
    (s.dropIfWaiting).configDegraded = s.configDegraded ∧ (s.dropIfWaiting).activationDue = s.activationDue ∧
    (s.dropIfWaiting).freeze = s.freeze ∧ (s.dropIfWaiting).deferredFreeze = s.deferredFreeze ∧
    (s.dropIfWaiting).held = s.held ∧ (s.dropIfWaiting).pendingRead = s.pendingRead ∧
    (s.dropIfWaiting).nextAcceptance = s.nextAcceptance ∧ (s.dropIfWaiting).mark = s.mark ∧
    (s.dropIfWaiting).job = s.job ∧ (s.dropIfWaiting).readHeld = s.readHeld ∧ (s.dropIfWaiting).port = s.port ∧
    (s.dropIfWaiting).waitFront = s.waitFront ∧ (s.dropIfWaiting).waitMaint = s.waitMaint ∧
    (s.dropIfWaiting).lastServed = s.lastServed ∧ (s.dropIfWaiting).retryCounter = s.retryCounter ∧
    (s.dropIfWaiting).response = s.response ∧ (s.dropIfWaiting).linkOut = s.linkOut ∧
    (s.dropIfWaiting).completion = s.completion ∧ (s.dropIfWaiting).ckptLatch = s.ckptLatch ∧
    (s.dropIfWaiting).alertMask = s.alertMask ∧ (s.dropIfWaiting).freeCount = s.freeCount := by
  unfold State.dropIfWaiting
  all_goals try dsimp only
  all_goals repeat' split
  all_goals simp

@[simp] theorem State.holdExpires_frame (s : State) :
    (s.holdExpires).recoveryMark = s.recoveryMark ∧
    (s.holdExpires).pending = s.pending ∧ (s.holdExpires).inReset = s.inReset ∧
    (s.holdExpires).operating = s.operating ∧ (s.holdExpires).pfw = s.pfw ∧
    (s.holdExpires).ckptHigh = s.ckptHigh ∧ (s.holdExpires).mem = s.mem ∧ (s.holdExpires).journal = s.journal ∧
    (s.holdExpires).epoch = s.epoch ∧ (s.holdExpires).anchorA = s.anchorA ∧ (s.holdExpires).anchorB = s.anchorB ∧
    (s.holdExpires).slots = s.slots ∧ (s.holdExpires).slotHeaders = s.slotHeaders ∧
    (s.holdExpires).index = s.index ∧ (s.holdExpires).stack = s.stack ∧
    (s.holdExpires).nextSequence = s.nextSequence ∧ (s.holdExpires).exhausted = s.exhausted ∧
    (s.holdExpires).headerMark = s.headerMark ∧ (s.holdExpires).longOp = s.longOp ∧
    (s.holdExpires).maint = s.maint ∧ (s.holdExpires).active = s.active ∧ (s.holdExpires).staging = s.staging ∧
    (s.holdExpires).copyA = s.copyA ∧ (s.holdExpires).copyB = s.copyB ∧
    (s.holdExpires).designation = s.designation ∧ (s.holdExpires).configDegraded = s.configDegraded ∧
    (s.holdExpires).activationDue = s.activationDue ∧ (s.holdExpires).freeze = s.freeze ∧
    (s.holdExpires).deferredFreeze = s.deferredFreeze ∧ (s.holdExpires).mark = s.mark ∧
    (s.holdExpires).job = s.job ∧ (s.holdExpires).parked = s.parked ∧ (s.holdExpires).port = s.port ∧
    (s.holdExpires).waitFront = s.waitFront ∧ (s.holdExpires).waitMaint = s.waitMaint ∧
    (s.holdExpires).lastServed = s.lastServed ∧ (s.holdExpires).retryCounter = s.retryCounter ∧
    (s.holdExpires).response = s.response ∧ (s.holdExpires).linkOut = s.linkOut ∧
    (s.holdExpires).completion = s.completion ∧ (s.holdExpires).ckptLatch = s.ckptLatch ∧
    (s.holdExpires).alertMask = s.alertMask ∧ (s.holdExpires).freeCount = s.freeCount := by
  unfold State.holdExpires
  all_goals try dsimp only
  all_goals repeat' split
  all_goals simp

end Sys2Proof.Machine
end

