-- ==== Sys2Proof/Laws/Frames.lean ====
section
/-! SUPPORT. The fields that each composed operation of the long operations, the journal, the configuration, the Row
Engine, the memory port, the link and the lines leaves as they were, so that a proof about one field passes over
the operations that do not touch it. -/
namespace Sys2Proof.Machine
set_option linter.unusedTactic false
set_option linter.unusedSimpArgs false

@[simp] theorem State.enterQuiescing_frame (s : State) :
    (s.enterQuiescing).recoveryMark = s.recoveryMark ∧
    (s.enterQuiescing).pending = s.pending ∧ (s.enterQuiescing).inReset = s.inReset ∧
    (s.enterQuiescing).pfw = s.pfw ∧ (s.enterQuiescing).ckptHigh = s.ckptHigh ∧ (s.enterQuiescing).mem = s.mem ∧
    (s.enterQuiescing).journal = s.journal ∧ (s.enterQuiescing).epoch = s.epoch ∧
    (s.enterQuiescing).anchorA = s.anchorA ∧ (s.enterQuiescing).anchorB = s.anchorB ∧
    (s.enterQuiescing).slots = s.slots ∧ (s.enterQuiescing).slotHeaders = s.slotHeaders ∧
    (s.enterQuiescing).index = s.index ∧ (s.enterQuiescing).stack = s.stack ∧
    (s.enterQuiescing).nextSequence = s.nextSequence ∧ (s.enterQuiescing).exhausted = s.exhausted ∧
    (s.enterQuiescing).headerMark = s.headerMark ∧ (s.enterQuiescing).longOp = s.longOp ∧
    (s.enterQuiescing).maint = s.maint ∧ (s.enterQuiescing).active = s.active ∧
    (s.enterQuiescing).staging = s.staging ∧ (s.enterQuiescing).copyA = s.copyA ∧
    (s.enterQuiescing).copyB = s.copyB ∧ (s.enterQuiescing).designation = s.designation ∧
    (s.enterQuiescing).configDegraded = s.configDegraded ∧ (s.enterQuiescing).activationDue = s.activationDue ∧
    (s.enterQuiescing).freeze = s.freeze ∧ (s.enterQuiescing).deferredFreeze = s.deferredFreeze ∧
    (s.enterQuiescing).held = s.held ∧ (s.enterQuiescing).pendingRead = s.pendingRead ∧
    (s.enterQuiescing).nextAcceptance = s.nextAcceptance ∧ (s.enterQuiescing).mark = s.mark ∧
    (s.enterQuiescing).job = s.job ∧ (s.enterQuiescing).readHeld = s.readHeld ∧ (s.enterQuiescing).port = s.port ∧
    (s.enterQuiescing).waitFront = s.waitFront ∧ (s.enterQuiescing).waitMaint = s.waitMaint ∧
    (s.enterQuiescing).lastServed = s.lastServed ∧ (s.enterQuiescing).retryCounter = s.retryCounter ∧
    (s.enterQuiescing).response = s.response ∧ (s.enterQuiescing).linkOut = s.linkOut ∧
    (s.enterQuiescing).completion = s.completion ∧ (s.enterQuiescing).ckptLatch = s.ckptLatch ∧
    (s.enterQuiescing).alertMask = s.alertMask ∧ (s.enterQuiescing).freeCount = s.freeCount := by
  unfold State.enterQuiescing
  all_goals try dsimp only
  all_goals repeat' split
  all_goals simp

@[simp] theorem State.enterRunning_frame (s : State) :
    (s.enterRunning).recoveryMark = s.recoveryMark ∧
    (s.enterRunning).pending = s.pending ∧ (s.enterRunning).inReset = s.inReset ∧ (s.enterRunning).pfw = s.pfw ∧
    (s.enterRunning).ckptHigh = s.ckptHigh ∧ (s.enterRunning).mem = s.mem ∧ (s.enterRunning).journal = s.journal ∧
    (s.enterRunning).epoch = s.epoch ∧ (s.enterRunning).anchorA = s.anchorA ∧
    (s.enterRunning).anchorB = s.anchorB ∧ (s.enterRunning).slots = s.slots ∧
    (s.enterRunning).slotHeaders = s.slotHeaders ∧ (s.enterRunning).index = s.index ∧
    (s.enterRunning).stack = s.stack ∧ (s.enterRunning).nextSequence = s.nextSequence ∧
    (s.enterRunning).exhausted = s.exhausted ∧ (s.enterRunning).headerMark = s.headerMark ∧
    (s.enterRunning).longOp = s.longOp ∧ (s.enterRunning).maint = s.maint ∧ (s.enterRunning).active = s.active ∧
    (s.enterRunning).staging = s.staging ∧ (s.enterRunning).copyA = s.copyA ∧ (s.enterRunning).copyB = s.copyB ∧
    (s.enterRunning).designation = s.designation ∧ (s.enterRunning).configDegraded = s.configDegraded ∧
    (s.enterRunning).activationDue = s.activationDue ∧ (s.enterRunning).freeze = s.freeze ∧
    (s.enterRunning).deferredFreeze = s.deferredFreeze ∧ (s.enterRunning).held = s.held ∧
    (s.enterRunning).pendingRead = s.pendingRead ∧ (s.enterRunning).nextAcceptance = s.nextAcceptance ∧
    (s.enterRunning).mark = s.mark ∧ (s.enterRunning).job = s.job ∧ (s.enterRunning).readHeld = s.readHeld ∧
    (s.enterRunning).port = s.port ∧ (s.enterRunning).waitFront = s.waitFront ∧
    (s.enterRunning).waitMaint = s.waitMaint ∧ (s.enterRunning).lastServed = s.lastServed ∧
    (s.enterRunning).retryCounter = s.retryCounter ∧ (s.enterRunning).response = s.response ∧
    (s.enterRunning).linkOut = s.linkOut ∧ (s.enterRunning).completion = s.completion ∧
    (s.enterRunning).ckptLatch = s.ckptLatch ∧ (s.enterRunning).alertMask = s.alertMask ∧
    (s.enterRunning).freeCount = s.freeCount := by
  unfold State.enterRunning
  all_goals try dsimp only
  all_goals repeat' split
  all_goals simp

@[simp] theorem State.startOperation_frame (s : State) (kind : OpKind) (origin : Origin) (skip : Bool) :
    (s.startOperation kind origin skip).recoveryMark = s.recoveryMark ∧
    (s.startOperation kind origin skip).pending = s.pending ∧
    (s.startOperation kind origin skip).inReset = s.inReset ∧
    (s.startOperation kind origin skip).operating = s.operating ∧
    (s.startOperation kind origin skip).pfw = s.pfw ∧ (s.startOperation kind origin skip).ckptHigh = s.ckptHigh ∧
    (s.startOperation kind origin skip).mem = s.mem ∧ (s.startOperation kind origin skip).epoch = s.epoch ∧
    (s.startOperation kind origin skip).anchorA = s.anchorA ∧
    (s.startOperation kind origin skip).anchorB = s.anchorB ∧
    (s.startOperation kind origin skip).slots = s.slots ∧
    (s.startOperation kind origin skip).slotHeaders = s.slotHeaders ∧
    (s.startOperation kind origin skip).index = s.index ∧ (s.startOperation kind origin skip).stack = s.stack ∧
    (s.startOperation kind origin skip).nextSequence = s.nextSequence ∧
    (s.startOperation kind origin skip).exhausted = s.exhausted ∧
    (s.startOperation kind origin skip).headerMark = s.headerMark ∧
    (s.startOperation kind origin skip).maint = s.maint ∧ (s.startOperation kind origin skip).active = s.active ∧
    (s.startOperation kind origin skip).staging = s.staging ∧
    (s.startOperation kind origin skip).copyA = s.copyA ∧ (s.startOperation kind origin skip).copyB = s.copyB ∧
    (s.startOperation kind origin skip).designation = s.designation ∧
    (s.startOperation kind origin skip).configDegraded = s.configDegraded ∧
    (s.startOperation kind origin skip).activationDue = s.activationDue ∧
    (s.startOperation kind origin skip).freeze = s.freeze ∧
    (s.startOperation kind origin skip).deferredFreeze = s.deferredFreeze ∧
    (s.startOperation kind origin skip).held = s.held ∧
    (s.startOperation kind origin skip).pendingRead = s.pendingRead ∧
    (s.startOperation kind origin skip).queue = s.queue ∧
    (s.startOperation kind origin skip).nextAcceptance = s.nextAcceptance ∧
    (s.startOperation kind origin skip).frontResponse = s.frontResponse ∧
    (s.startOperation kind origin skip).job = s.job ∧ (s.startOperation kind origin skip).parked = s.parked ∧
    (s.startOperation kind origin skip).port = s.port ∧
    (s.startOperation kind origin skip).waitFront = s.waitFront ∧
    (s.startOperation kind origin skip).waitMaint = s.waitMaint ∧
    (s.startOperation kind origin skip).lastServed = s.lastServed ∧
    (s.startOperation kind origin skip).retryCounter = s.retryCounter ∧
    (s.startOperation kind origin skip).response = s.response ∧
    (s.startOperation kind origin skip).linkOut = s.linkOut ∧
    (s.startOperation kind origin skip).completion = s.completion ∧
    (s.startOperation kind origin skip).ckptLatch = s.ckptLatch ∧
    (s.startOperation kind origin skip).log = s.log ∧ (s.startOperation kind origin skip).dropped = s.dropped ∧
    (s.startOperation kind origin skip).alertMask = s.alertMask ∧
    (s.startOperation kind origin skip).freeCount = s.freeCount := by
  unfold State.startOperation
  all_goals try dsimp only
  all_goals repeat' split
  all_goals simp

@[simp] theorem State.takeCommit_frame (s : State) (origin : Origin) :
    (s.takeCommit origin).recoveryMark = s.recoveryMark ∧
    (s.takeCommit origin).pending = s.pending ∧ (s.takeCommit origin).inReset = s.inReset ∧
    (s.takeCommit origin).operating = s.operating ∧ (s.takeCommit origin).pfw = s.pfw ∧
    (s.takeCommit origin).ckptHigh = s.ckptHigh ∧ (s.takeCommit origin).mem = s.mem ∧
    (s.takeCommit origin).epoch = s.epoch ∧ (s.takeCommit origin).anchorA = s.anchorA ∧
    (s.takeCommit origin).anchorB = s.anchorB ∧ (s.takeCommit origin).slots = s.slots ∧
    (s.takeCommit origin).slotHeaders = s.slotHeaders ∧ (s.takeCommit origin).index = s.index ∧
    (s.takeCommit origin).stack = s.stack ∧ (s.takeCommit origin).nextSequence = s.nextSequence ∧
    (s.takeCommit origin).exhausted = s.exhausted ∧ (s.takeCommit origin).headerMark = s.headerMark ∧
    (s.takeCommit origin).maint = s.maint ∧ (s.takeCommit origin).active = s.active ∧
    (s.takeCommit origin).staging = s.staging ∧ (s.takeCommit origin).copyA = s.copyA ∧
    (s.takeCommit origin).copyB = s.copyB ∧ (s.takeCommit origin).designation = s.designation ∧
    (s.takeCommit origin).configDegraded = s.configDegraded ∧
    (s.takeCommit origin).activationDue = s.activationDue ∧ (s.takeCommit origin).freeze = s.freeze ∧
    (s.takeCommit origin).deferredFreeze = s.deferredFreeze ∧ (s.takeCommit origin).held = s.held ∧
    (s.takeCommit origin).pendingRead = s.pendingRead ∧ (s.takeCommit origin).nextAcceptance = s.nextAcceptance ∧
    (s.takeCommit origin).frontResponse = s.frontResponse ∧ (s.takeCommit origin).job = s.job ∧
    (s.takeCommit origin).port = s.port ∧ (s.takeCommit origin).waitFront = s.waitFront ∧
    (s.takeCommit origin).waitMaint = s.waitMaint ∧ (s.takeCommit origin).lastServed = s.lastServed ∧
    (s.takeCommit origin).retryCounter = s.retryCounter ∧ (s.takeCommit origin).response = s.response ∧
    (s.takeCommit origin).linkOut = s.linkOut ∧ (s.takeCommit origin).completion = s.completion ∧
    (s.takeCommit origin).ckptLatch = s.ckptLatch ∧ (s.takeCommit origin).log = s.log ∧
    (s.takeCommit origin).dropped = s.dropped ∧ (s.takeCommit origin).alertMask = s.alertMask ∧
    (s.takeCommit origin).freeCount = s.freeCount := by
  unfold State.takeCommit
  all_goals try dsimp only
  all_goals repeat' split
  all_goals simp

@[simp] theorem State.writeCompletion_frame (s : State) (c : CompletionRecord) :
    (s.writeCompletion c).recoveryMark = s.recoveryMark ∧
    (s.writeCompletion c).pending = s.pending ∧ (s.writeCompletion c).inReset = s.inReset ∧
    (s.writeCompletion c).operating = s.operating ∧ (s.writeCompletion c).pfw = s.pfw ∧
    (s.writeCompletion c).ckptHigh = s.ckptHigh ∧ (s.writeCompletion c).mem = s.mem ∧
    (s.writeCompletion c).journal = s.journal ∧ (s.writeCompletion c).epoch = s.epoch ∧
    (s.writeCompletion c).anchorA = s.anchorA ∧ (s.writeCompletion c).anchorB = s.anchorB ∧
    (s.writeCompletion c).slots = s.slots ∧ (s.writeCompletion c).slotHeaders = s.slotHeaders ∧
    (s.writeCompletion c).index = s.index ∧ (s.writeCompletion c).stack = s.stack ∧
    (s.writeCompletion c).nextSequence = s.nextSequence ∧ (s.writeCompletion c).exhausted = s.exhausted ∧
    (s.writeCompletion c).headerMark = s.headerMark ∧ (s.writeCompletion c).longOp = s.longOp ∧
    (s.writeCompletion c).maint = s.maint ∧ (s.writeCompletion c).active = s.active ∧
    (s.writeCompletion c).staging = s.staging ∧ (s.writeCompletion c).copyA = s.copyA ∧
    (s.writeCompletion c).copyB = s.copyB ∧ (s.writeCompletion c).designation = s.designation ∧
    (s.writeCompletion c).configDegraded = s.configDegraded ∧
    (s.writeCompletion c).activationDue = s.activationDue ∧ (s.writeCompletion c).freeze = s.freeze ∧
    (s.writeCompletion c).deferredFreeze = s.deferredFreeze ∧ (s.writeCompletion c).held = s.held ∧
    (s.writeCompletion c).pendingRead = s.pendingRead ∧ (s.writeCompletion c).queue = s.queue ∧
    (s.writeCompletion c).nextAcceptance = s.nextAcceptance ∧ (s.writeCompletion c).mark = s.mark ∧
    (s.writeCompletion c).frontResponse = s.frontResponse ∧ (s.writeCompletion c).job = s.job ∧
    (s.writeCompletion c).parked = s.parked ∧ (s.writeCompletion c).readHeld = s.readHeld ∧
    (s.writeCompletion c).headHeld = s.headHeld ∧ (s.writeCompletion c).port = s.port ∧
    (s.writeCompletion c).waitFront = s.waitFront ∧ (s.writeCompletion c).waitMaint = s.waitMaint ∧
    (s.writeCompletion c).lastServed = s.lastServed ∧ (s.writeCompletion c).retryCounter = s.retryCounter ∧
    (s.writeCompletion c).response = s.response ∧ (s.writeCompletion c).linkOut = s.linkOut ∧
    (s.writeCompletion c).ckptLatch = s.ckptLatch ∧ (s.writeCompletion c).log = s.log ∧
    (s.writeCompletion c).dropped = s.dropped ∧ (s.writeCompletion c).alertMask = s.alertMask ∧
    (s.writeCompletion c).freeCount = s.freeCount := by
  unfold State.writeCompletion
  all_goals try dsimp only
  all_goals repeat' split
  all_goals simp

@[simp] theorem State.settleLatch_frame (s : State) :
    (s.settleLatch).recoveryMark = s.recoveryMark ∧
    (s.settleLatch).pending = s.pending ∧ (s.settleLatch).inReset = s.inReset ∧
    (s.settleLatch).operating = s.operating ∧ (s.settleLatch).pfw = s.pfw ∧
    (s.settleLatch).ckptHigh = s.ckptHigh ∧ (s.settleLatch).mem = s.mem ∧ (s.settleLatch).epoch = s.epoch ∧
    (s.settleLatch).anchorA = s.anchorA ∧ (s.settleLatch).anchorB = s.anchorB ∧ (s.settleLatch).slots = s.slots ∧
    (s.settleLatch).slotHeaders = s.slotHeaders ∧ (s.settleLatch).index = s.index ∧
    (s.settleLatch).stack = s.stack ∧ (s.settleLatch).nextSequence = s.nextSequence ∧
    (s.settleLatch).exhausted = s.exhausted ∧ (s.settleLatch).headerMark = s.headerMark ∧
    (s.settleLatch).maint = s.maint ∧ (s.settleLatch).active = s.active ∧ (s.settleLatch).staging = s.staging ∧
    (s.settleLatch).copyA = s.copyA ∧ (s.settleLatch).copyB = s.copyB ∧
    (s.settleLatch).designation = s.designation ∧ (s.settleLatch).configDegraded = s.configDegraded ∧
    (s.settleLatch).activationDue = s.activationDue ∧ (s.settleLatch).freeze = s.freeze ∧
    (s.settleLatch).deferredFreeze = s.deferredFreeze ∧ (s.settleLatch).held = s.held ∧
    (s.settleLatch).pendingRead = s.pendingRead ∧ (s.settleLatch).nextAcceptance = s.nextAcceptance ∧
    (s.settleLatch).frontResponse = s.frontResponse ∧ (s.settleLatch).job = s.job ∧
    (s.settleLatch).port = s.port ∧ (s.settleLatch).waitFront = s.waitFront ∧
    (s.settleLatch).waitMaint = s.waitMaint ∧ (s.settleLatch).lastServed = s.lastServed ∧
    (s.settleLatch).retryCounter = s.retryCounter ∧ (s.settleLatch).response = s.response ∧
    (s.settleLatch).linkOut = s.linkOut ∧ (s.settleLatch).completion = s.completion ∧
    (s.settleLatch).alertMask = s.alertMask ∧ (s.settleLatch).freeCount = s.freeCount := by
  unfold State.settleLatch
  all_goals try dsimp only
  all_goals repeat' split
  all_goals simp

@[simp] theorem State.endStartRunning_frame (s : State) :
    (s.endStartRunning).recoveryMark = s.recoveryMark ∧
    (s.endStartRunning).pending = s.pending ∧ (s.endStartRunning).inReset = s.inReset ∧
    (s.endStartRunning).pfw = s.pfw ∧ (s.endStartRunning).ckptHigh = s.ckptHigh ∧
    (s.endStartRunning).mem = s.mem ∧ (s.endStartRunning).epoch = s.epoch ∧
    (s.endStartRunning).anchorA = s.anchorA ∧ (s.endStartRunning).anchorB = s.anchorB ∧
    (s.endStartRunning).slots = s.slots ∧ (s.endStartRunning).slotHeaders = s.slotHeaders ∧
    (s.endStartRunning).index = s.index ∧ (s.endStartRunning).stack = s.stack ∧
    (s.endStartRunning).nextSequence = s.nextSequence ∧ (s.endStartRunning).exhausted = s.exhausted ∧
    (s.endStartRunning).headerMark = s.headerMark ∧ (s.endStartRunning).maint = s.maint ∧
    (s.endStartRunning).active = s.active ∧ (s.endStartRunning).staging = s.staging ∧
    (s.endStartRunning).copyA = s.copyA ∧ (s.endStartRunning).copyB = s.copyB ∧
    (s.endStartRunning).designation = s.designation ∧ (s.endStartRunning).configDegraded = s.configDegraded ∧
    (s.endStartRunning).activationDue = s.activationDue ∧ (s.endStartRunning).freeze = s.freeze ∧
    (s.endStartRunning).deferredFreeze = s.deferredFreeze ∧ (s.endStartRunning).held = s.held ∧
    (s.endStartRunning).pendingRead = s.pendingRead ∧ (s.endStartRunning).nextAcceptance = s.nextAcceptance ∧
    (s.endStartRunning).job = s.job ∧ (s.endStartRunning).port = s.port ∧
    (s.endStartRunning).waitFront = s.waitFront ∧ (s.endStartRunning).waitMaint = s.waitMaint ∧
    (s.endStartRunning).lastServed = s.lastServed ∧ (s.endStartRunning).retryCounter = s.retryCounter ∧
    (s.endStartRunning).response = s.response ∧ (s.endStartRunning).linkOut = s.linkOut ∧
    (s.endStartRunning).completion = s.completion ∧ (s.endStartRunning).alertMask = s.alertMask ∧
    (s.endStartRunning).freeCount = s.freeCount := by
  unfold State.endStartRunning
  all_goals try dsimp only
  all_goals repeat' split
  all_goals simp

@[simp] theorem State.leaveUnconfigured_frame (s : State) :
    (s.leaveUnconfigured).recoveryMark = s.recoveryMark ∧
    (s.leaveUnconfigured).pending = s.pending ∧ (s.leaveUnconfigured).inReset = s.inReset ∧
    (s.leaveUnconfigured).pfw = s.pfw ∧ (s.leaveUnconfigured).ckptHigh = s.ckptHigh ∧
    (s.leaveUnconfigured).mem = s.mem ∧ (s.leaveUnconfigured).journal = s.journal ∧
    (s.leaveUnconfigured).epoch = s.epoch ∧ (s.leaveUnconfigured).anchorA = s.anchorA ∧
    (s.leaveUnconfigured).anchorB = s.anchorB ∧ (s.leaveUnconfigured).slots = s.slots ∧
    (s.leaveUnconfigured).slotHeaders = s.slotHeaders ∧ (s.leaveUnconfigured).index = s.index ∧
    (s.leaveUnconfigured).stack = s.stack ∧ (s.leaveUnconfigured).nextSequence = s.nextSequence ∧
    (s.leaveUnconfigured).exhausted = s.exhausted ∧ (s.leaveUnconfigured).headerMark = s.headerMark ∧
    (s.leaveUnconfigured).longOp = s.longOp ∧ (s.leaveUnconfigured).maint = s.maint ∧
    (s.leaveUnconfigured).active = s.active ∧ (s.leaveUnconfigured).staging = s.staging ∧
    (s.leaveUnconfigured).copyA = s.copyA ∧ (s.leaveUnconfigured).copyB = s.copyB ∧
    (s.leaveUnconfigured).designation = s.designation ∧ (s.leaveUnconfigured).configDegraded = s.configDegraded ∧
    (s.leaveUnconfigured).activationDue = s.activationDue ∧ (s.leaveUnconfigured).freeze = s.freeze ∧
    (s.leaveUnconfigured).deferredFreeze = s.deferredFreeze ∧ (s.leaveUnconfigured).held = s.held ∧
    (s.leaveUnconfigured).pendingRead = s.pendingRead ∧ (s.leaveUnconfigured).nextAcceptance = s.nextAcceptance ∧
    (s.leaveUnconfigured).mark = s.mark ∧ (s.leaveUnconfigured).job = s.job ∧
    (s.leaveUnconfigured).readHeld = s.readHeld ∧ (s.leaveUnconfigured).port = s.port ∧
    (s.leaveUnconfigured).waitFront = s.waitFront ∧ (s.leaveUnconfigured).waitMaint = s.waitMaint ∧
    (s.leaveUnconfigured).lastServed = s.lastServed ∧ (s.leaveUnconfigured).retryCounter = s.retryCounter ∧
    (s.leaveUnconfigured).response = s.response ∧ (s.leaveUnconfigured).linkOut = s.linkOut ∧
    (s.leaveUnconfigured).completion = s.completion ∧ (s.leaveUnconfigured).ckptLatch = s.ckptLatch ∧
    (s.leaveUnconfigured).alertMask = s.alertMask ∧ (s.leaveUnconfigured).freeCount = s.freeCount := by
  unfold State.leaveUnconfigured
  all_goals try dsimp only
  all_goals repeat' split
  all_goals simp

@[simp] theorem State.endOperation_frame (s : State) (journal : JournalState) (result : OpResult) (reason : Option Reason) (fault : Option FaultKind) :
    (s.endOperation journal result reason fault).pending = s.pending ∧
    (s.endOperation journal result reason fault).inReset = s.inReset ∧
    (s.endOperation journal result reason fault).pfw = s.pfw ∧
    (s.endOperation journal result reason fault).ckptHigh = s.ckptHigh ∧
    (s.endOperation journal result reason fault).mem = s.mem ∧
    (s.endOperation journal result reason fault).epoch = s.epoch ∧
    (s.endOperation journal result reason fault).anchorA = s.anchorA ∧
    (s.endOperation journal result reason fault).anchorB = s.anchorB ∧
    (s.endOperation journal result reason fault).slots = s.slots ∧
    (s.endOperation journal result reason fault).slotHeaders = s.slotHeaders ∧
    (s.endOperation journal result reason fault).index = s.index ∧
    (s.endOperation journal result reason fault).stack = s.stack ∧
    (s.endOperation journal result reason fault).nextSequence = s.nextSequence ∧
    (s.endOperation journal result reason fault).exhausted = s.exhausted ∧
    (s.endOperation journal result reason fault).headerMark = s.headerMark ∧
    (s.endOperation journal result reason fault).active = s.active ∧
    (s.endOperation journal result reason fault).staging = s.staging ∧
    (s.endOperation journal result reason fault).copyA = s.copyA ∧
    (s.endOperation journal result reason fault).copyB = s.copyB ∧
    (s.endOperation journal result reason fault).designation = s.designation ∧
    (s.endOperation journal result reason fault).configDegraded = s.configDegraded ∧
    (s.endOperation journal result reason fault).activationDue = s.activationDue ∧
    (s.endOperation journal result reason fault).freeze = s.freeze ∧
    (s.endOperation journal result reason fault).deferredFreeze = s.deferredFreeze ∧
    (s.endOperation journal result reason fault).held = s.held ∧
    (s.endOperation journal result reason fault).pendingRead = s.pendingRead ∧
    (s.endOperation journal result reason fault).nextAcceptance = s.nextAcceptance ∧
    (s.endOperation journal result reason fault).job = s.job ∧
    (s.endOperation journal result reason fault).port = s.port ∧
    (s.endOperation journal result reason fault).waitFront = s.waitFront ∧
    (s.endOperation journal result reason fault).waitMaint = s.waitMaint ∧
    (s.endOperation journal result reason fault).lastServed = s.lastServed ∧
    (s.endOperation journal result reason fault).retryCounter = s.retryCounter ∧
    (s.endOperation journal result reason fault).response = s.response ∧
    (s.endOperation journal result reason fault).linkOut = s.linkOut ∧
    (s.endOperation journal result reason fault).alertMask = s.alertMask ∧
    (s.endOperation journal result reason fault).freeCount = s.freeCount := by
  unfold State.endOperation
  all_goals try dsimp only
  all_goals repeat' split
  all_goals simp

@[simp] theorem State.refuseOperation_frame (s : State) (reason : Reason) :
    (s.refuseOperation reason).pending = s.pending ∧ (s.refuseOperation reason).inReset = s.inReset ∧
    (s.refuseOperation reason).pfw = s.pfw ∧ (s.refuseOperation reason).ckptHigh = s.ckptHigh ∧
    (s.refuseOperation reason).mem = s.mem ∧ (s.refuseOperation reason).epoch = s.epoch ∧
    (s.refuseOperation reason).anchorA = s.anchorA ∧ (s.refuseOperation reason).anchorB = s.anchorB ∧
    (s.refuseOperation reason).slots = s.slots ∧ (s.refuseOperation reason).slotHeaders = s.slotHeaders ∧
    (s.refuseOperation reason).index = s.index ∧ (s.refuseOperation reason).stack = s.stack ∧
    (s.refuseOperation reason).nextSequence = s.nextSequence ∧
    (s.refuseOperation reason).exhausted = s.exhausted ∧ (s.refuseOperation reason).headerMark = s.headerMark ∧
    (s.refuseOperation reason).active = s.active ∧ (s.refuseOperation reason).staging = s.staging ∧
    (s.refuseOperation reason).copyA = s.copyA ∧ (s.refuseOperation reason).copyB = s.copyB ∧
    (s.refuseOperation reason).designation = s.designation ∧
    (s.refuseOperation reason).configDegraded = s.configDegraded ∧
    (s.refuseOperation reason).activationDue = s.activationDue ∧ (s.refuseOperation reason).freeze = s.freeze ∧
    (s.refuseOperation reason).deferredFreeze = s.deferredFreeze ∧ (s.refuseOperation reason).held = s.held ∧
    (s.refuseOperation reason).pendingRead = s.pendingRead ∧
    (s.refuseOperation reason).nextAcceptance = s.nextAcceptance ∧ (s.refuseOperation reason).job = s.job ∧
    (s.refuseOperation reason).port = s.port ∧ (s.refuseOperation reason).waitFront = s.waitFront ∧
    (s.refuseOperation reason).waitMaint = s.waitMaint ∧ (s.refuseOperation reason).lastServed = s.lastServed ∧
    (s.refuseOperation reason).retryCounter = s.retryCounter ∧ (s.refuseOperation reason).response = s.response ∧
    (s.refuseOperation reason).linkOut = s.linkOut ∧ (s.refuseOperation reason).alertMask = s.alertMask ∧
    (s.refuseOperation reason).freeCount = s.freeCount := by
  unfold State.refuseOperation
  all_goals try dsimp only
  all_goals repeat' split
  all_goals simp

@[simp] theorem State.markUnexamined_frame (s : State) :
    (s.markUnexamined).recoveryMark = s.recoveryMark ∧
    (s.markUnexamined).pending = s.pending ∧ (s.markUnexamined).inReset = s.inReset ∧
    (s.markUnexamined).operating = s.operating ∧ (s.markUnexamined).pfw = s.pfw ∧
    (s.markUnexamined).ckptHigh = s.ckptHigh ∧ (s.markUnexamined).mem = s.mem ∧
    (s.markUnexamined).journal = s.journal ∧ (s.markUnexamined).epoch = s.epoch ∧
    (s.markUnexamined).anchorA = s.anchorA ∧ (s.markUnexamined).anchorB = s.anchorB ∧
    (s.markUnexamined).slots = s.slots ∧ (s.markUnexamined).slotHeaders = s.slotHeaders ∧
    (s.markUnexamined).index = s.index ∧ (s.markUnexamined).stack = s.stack ∧
    (s.markUnexamined).nextSequence = s.nextSequence ∧ (s.markUnexamined).exhausted = s.exhausted ∧
    (s.markUnexamined).longOp = s.longOp ∧ (s.markUnexamined).maint = s.maint ∧
    (s.markUnexamined).active = s.active ∧ (s.markUnexamined).staging = s.staging ∧
    (s.markUnexamined).copyA = s.copyA ∧ (s.markUnexamined).copyB = s.copyB ∧
    (s.markUnexamined).designation = s.designation ∧ (s.markUnexamined).configDegraded = s.configDegraded ∧
    (s.markUnexamined).activationDue = s.activationDue ∧ (s.markUnexamined).freeze = s.freeze ∧
    (s.markUnexamined).deferredFreeze = s.deferredFreeze ∧ (s.markUnexamined).held = s.held ∧
    (s.markUnexamined).pendingRead = s.pendingRead ∧ (s.markUnexamined).queue = s.queue ∧
    (s.markUnexamined).nextAcceptance = s.nextAcceptance ∧ (s.markUnexamined).mark = s.mark ∧
    (s.markUnexamined).frontResponse = s.frontResponse ∧ (s.markUnexamined).job = s.job ∧
    (s.markUnexamined).parked = s.parked ∧ (s.markUnexamined).readHeld = s.readHeld ∧
    (s.markUnexamined).headHeld = s.headHeld ∧ (s.markUnexamined).port = s.port ∧
    (s.markUnexamined).waitFront = s.waitFront ∧ (s.markUnexamined).waitMaint = s.waitMaint ∧
    (s.markUnexamined).lastServed = s.lastServed ∧ (s.markUnexamined).retryCounter = s.retryCounter ∧
    (s.markUnexamined).response = s.response ∧ (s.markUnexamined).linkOut = s.linkOut ∧
    (s.markUnexamined).completion = s.completion ∧ (s.markUnexamined).ckptLatch = s.ckptLatch ∧
    (s.markUnexamined).log = s.log ∧ (s.markUnexamined).dropped = s.dropped ∧
    (s.markUnexamined).alertMask = s.alertMask ∧ (s.markUnexamined).freeCount = s.freeCount := by
  unfold State.markUnexamined
  all_goals try dsimp only
  all_goals repeat' split
  all_goals simp

@[simp] theorem State.failOperation_frame (s : State) (journal : JournalState) (kind : FaultKind) :
    (s.failOperation journal kind).pending = s.pending ∧ (s.failOperation journal kind).inReset = s.inReset ∧
    (s.failOperation journal kind).pfw = s.pfw ∧ (s.failOperation journal kind).ckptHigh = s.ckptHigh ∧
    (s.failOperation journal kind).mem = s.mem ∧ (s.failOperation journal kind).epoch = s.epoch ∧
    (s.failOperation journal kind).anchorA = s.anchorA ∧ (s.failOperation journal kind).anchorB = s.anchorB ∧
    (s.failOperation journal kind).slots = s.slots ∧ (s.failOperation journal kind).slotHeaders = s.slotHeaders ∧ (s.failOperation journal kind).index = s.index ∧
    (s.failOperation journal kind).stack = s.stack ∧
    (s.failOperation journal kind).nextSequence = s.nextSequence ∧
    (s.failOperation journal kind).exhausted = s.exhausted ∧

    (s.failOperation journal kind).active = s.active ∧ (s.failOperation journal kind).staging = s.staging ∧
    (s.failOperation journal kind).copyA = s.copyA ∧ (s.failOperation journal kind).copyB = s.copyB ∧
    (s.failOperation journal kind).designation = s.designation ∧
    (s.failOperation journal kind).configDegraded = s.configDegraded ∧
    (s.failOperation journal kind).activationDue = s.activationDue ∧
    (s.failOperation journal kind).freeze = s.freeze ∧
    (s.failOperation journal kind).deferredFreeze = s.deferredFreeze ∧
    (s.failOperation journal kind).held = s.held ∧ (s.failOperation journal kind).pendingRead = s.pendingRead ∧
    (s.failOperation journal kind).nextAcceptance = s.nextAcceptance ∧
    (s.failOperation journal kind).job = s.job ∧ (s.failOperation journal kind).port = s.port ∧
    (s.failOperation journal kind).waitFront = s.waitFront ∧
    (s.failOperation journal kind).waitMaint = s.waitMaint ∧
    (s.failOperation journal kind).lastServed = s.lastServed ∧
    (s.failOperation journal kind).retryCounter = s.retryCounter ∧
    (s.failOperation journal kind).response = s.response ∧ (s.failOperation journal kind).linkOut = s.linkOut ∧
    (s.failOperation journal kind).alertMask = s.alertMask ∧
    (s.failOperation journal kind).freeCount = s.freeCount := by
  unfold State.failOperation
  all_goals try dsimp only
  all_goals repeat' split
  all_goals simp

@[simp] theorem State.drainAction_frame (s : State) :
    (s.drainAction).pending = s.pending ∧ (s.drainAction).inReset = s.inReset ∧ (s.drainAction).pfw = s.pfw ∧
    (s.drainAction).ckptHigh = s.ckptHigh ∧ (s.drainAction).mem = s.mem ∧ (s.drainAction).epoch = s.epoch ∧
    (s.drainAction).anchorA = s.anchorA ∧ (s.drainAction).anchorB = s.anchorB ∧ (s.drainAction).slots = s.slots ∧
    (s.drainAction).slotHeaders = s.slotHeaders ∧ (s.drainAction).index = s.index ∧
    (s.drainAction).stack = s.stack ∧ (s.drainAction).nextSequence = s.nextSequence ∧
    (s.drainAction).exhausted = s.exhausted ∧ (s.drainAction).headerMark = s.headerMark ∧
    (s.drainAction).active = s.active ∧ (s.drainAction).staging = s.staging ∧ (s.drainAction).copyA = s.copyA ∧
    (s.drainAction).copyB = s.copyB ∧ (s.drainAction).designation = s.designation ∧
    (s.drainAction).configDegraded = s.configDegraded ∧ (s.drainAction).activationDue = s.activationDue ∧
    (s.drainAction).freeze = s.freeze ∧ (s.drainAction).deferredFreeze = s.deferredFreeze ∧
    (s.drainAction).pendingRead = s.pendingRead ∧ (s.drainAction).job = s.job ∧ (s.drainAction).port = s.port ∧
    (s.drainAction).waitFront = s.waitFront ∧ (s.drainAction).waitMaint = s.waitMaint ∧
    (s.drainAction).lastServed = s.lastServed ∧ (s.drainAction).retryCounter = s.retryCounter ∧
    (s.drainAction).response = s.response ∧ (s.drainAction).linkOut = s.linkOut ∧
    (s.drainAction).alertMask = s.alertMask ∧ (s.drainAction).freeCount = s.freeCount := by
  unfold State.drainAction
  all_goals try dsimp only
  all_goals repeat' split
  all_goals simp

@[simp] theorem State.takeOperation_frame (s : State) (kind : OpKind) (origin : Origin) (skip : Bool) :
    (s.takeOperation kind origin skip).pending = s.pending ∧
    (s.takeOperation kind origin skip).inReset = s.inReset ∧ (s.takeOperation kind origin skip).pfw = s.pfw ∧
    (s.takeOperation kind origin skip).ckptHigh = s.ckptHigh ∧ (s.takeOperation kind origin skip).mem = s.mem ∧
    (s.takeOperation kind origin skip).epoch = s.epoch ∧ (s.takeOperation kind origin skip).anchorA = s.anchorA ∧
    (s.takeOperation kind origin skip).anchorB = s.anchorB ∧ (s.takeOperation kind origin skip).slots = s.slots ∧
    (s.takeOperation kind origin skip).slotHeaders = s.slotHeaders ∧
    (s.takeOperation kind origin skip).index = s.index ∧ (s.takeOperation kind origin skip).stack = s.stack ∧
    (s.takeOperation kind origin skip).nextSequence = s.nextSequence ∧
    (s.takeOperation kind origin skip).exhausted = s.exhausted ∧
    (s.takeOperation kind origin skip).headerMark = s.headerMark ∧
    (s.takeOperation kind origin skip).active = s.active ∧
    (s.takeOperation kind origin skip).staging = s.staging ∧ (s.takeOperation kind origin skip).copyA = s.copyA ∧
    (s.takeOperation kind origin skip).copyB = s.copyB ∧
    (s.takeOperation kind origin skip).designation = s.designation ∧
    (s.takeOperation kind origin skip).configDegraded = s.configDegraded ∧
    (s.takeOperation kind origin skip).activationDue = s.activationDue ∧
    (s.takeOperation kind origin skip).freeze = s.freeze ∧
    (s.takeOperation kind origin skip).deferredFreeze = s.deferredFreeze ∧
    (s.takeOperation kind origin skip).pendingRead = s.pendingRead ∧
    (s.takeOperation kind origin skip).job = s.job ∧ (s.takeOperation kind origin skip).port = s.port ∧
    (s.takeOperation kind origin skip).waitFront = s.waitFront ∧
    (s.takeOperation kind origin skip).waitMaint = s.waitMaint ∧
    (s.takeOperation kind origin skip).lastServed = s.lastServed ∧
    (s.takeOperation kind origin skip).retryCounter = s.retryCounter ∧
    (s.takeOperation kind origin skip).response = s.response ∧
    (s.takeOperation kind origin skip).linkOut = s.linkOut ∧
    (s.takeOperation kind origin skip).alertMask = s.alertMask ∧
    (s.takeOperation kind origin skip).freeCount = s.freeCount := by
  unfold State.takeOperation
  all_goals try dsimp only
  all_goals repeat' split
  all_goals simp

@[simp] theorem State.spaceWaitEntered_frame (s : State) :
    (s.spaceWaitEntered).pending = s.pending ∧ (s.spaceWaitEntered).inReset = s.inReset ∧
    (s.spaceWaitEntered).pfw = s.pfw ∧ (s.spaceWaitEntered).ckptHigh = s.ckptHigh ∧
    (s.spaceWaitEntered).mem = s.mem ∧ (s.spaceWaitEntered).epoch = s.epoch ∧
    (s.spaceWaitEntered).anchorA = s.anchorA ∧ (s.spaceWaitEntered).anchorB = s.anchorB ∧
    (s.spaceWaitEntered).slots = s.slots ∧ (s.spaceWaitEntered).slotHeaders = s.slotHeaders ∧
    (s.spaceWaitEntered).index = s.index ∧ (s.spaceWaitEntered).stack = s.stack ∧
    (s.spaceWaitEntered).nextSequence = s.nextSequence ∧ (s.spaceWaitEntered).exhausted = s.exhausted ∧
    (s.spaceWaitEntered).headerMark = s.headerMark ∧ (s.spaceWaitEntered).active = s.active ∧
    (s.spaceWaitEntered).staging = s.staging ∧ (s.spaceWaitEntered).copyA = s.copyA ∧
    (s.spaceWaitEntered).copyB = s.copyB ∧ (s.spaceWaitEntered).designation = s.designation ∧
    (s.spaceWaitEntered).configDegraded = s.configDegraded ∧
    (s.spaceWaitEntered).activationDue = s.activationDue ∧ (s.spaceWaitEntered).freeze = s.freeze ∧
    (s.spaceWaitEntered).deferredFreeze = s.deferredFreeze ∧ (s.spaceWaitEntered).pendingRead = s.pendingRead ∧
    (s.spaceWaitEntered).job = s.job ∧ (s.spaceWaitEntered).port = s.port ∧
    (s.spaceWaitEntered).waitFront = s.waitFront ∧ (s.spaceWaitEntered).waitMaint = s.waitMaint ∧
    (s.spaceWaitEntered).lastServed = s.lastServed ∧ (s.spaceWaitEntered).retryCounter = s.retryCounter ∧
    (s.spaceWaitEntered).response = s.response ∧ (s.spaceWaitEntered).linkOut = s.linkOut ∧
    (s.spaceWaitEntered).alertMask = s.alertMask := by
  unfold State.spaceWaitEntered
  all_goals try dsimp only
  all_goals repeat' split
  all_goals simp

@[simp] theorem State.decideDeferred_frame (s : State) (region : Fin 16) :
    (s.decideDeferred region).recoveryMark = s.recoveryMark ∧
    (s.decideDeferred region).pending = s.pending ∧ (s.decideDeferred region).inReset = s.inReset ∧
    (s.decideDeferred region).operating = s.operating ∧ (s.decideDeferred region).pfw = s.pfw ∧
    (s.decideDeferred region).ckptHigh = s.ckptHigh ∧ (s.decideDeferred region).mem = s.mem ∧
    (s.decideDeferred region).journal = s.journal ∧ (s.decideDeferred region).epoch = s.epoch ∧
    (s.decideDeferred region).anchorA = s.anchorA ∧ (s.decideDeferred region).anchorB = s.anchorB ∧
    (s.decideDeferred region).slots = s.slots ∧ (s.decideDeferred region).slotHeaders = s.slotHeaders ∧
    (s.decideDeferred region).index = s.index ∧ (s.decideDeferred region).stack = s.stack ∧
    (s.decideDeferred region).nextSequence = s.nextSequence ∧ (s.decideDeferred region).exhausted = s.exhausted ∧
    (s.decideDeferred region).headerMark = s.headerMark ∧ (s.decideDeferred region).longOp = s.longOp ∧
    (s.decideDeferred region).maint = s.maint ∧ (s.decideDeferred region).active = s.active ∧
    (s.decideDeferred region).staging = s.staging ∧ (s.decideDeferred region).copyA = s.copyA ∧
    (s.decideDeferred region).copyB = s.copyB ∧ (s.decideDeferred region).designation = s.designation ∧
    (s.decideDeferred region).configDegraded = s.configDegraded ∧
    (s.decideDeferred region).activationDue = s.activationDue ∧ (s.decideDeferred region).held = s.held ∧
    (s.decideDeferred region).pendingRead = s.pendingRead ∧ (s.decideDeferred region).queue = s.queue ∧
    (s.decideDeferred region).nextAcceptance = s.nextAcceptance ∧ (s.decideDeferred region).mark = s.mark ∧
    (s.decideDeferred region).frontResponse = s.frontResponse ∧ (s.decideDeferred region).job = s.job ∧
    (s.decideDeferred region).parked = s.parked ∧ (s.decideDeferred region).readHeld = s.readHeld ∧
    (s.decideDeferred region).headHeld = s.headHeld ∧ (s.decideDeferred region).port = s.port ∧
    (s.decideDeferred region).waitFront = s.waitFront ∧ (s.decideDeferred region).waitMaint = s.waitMaint ∧
    (s.decideDeferred region).lastServed = s.lastServed ∧
    (s.decideDeferred region).retryCounter = s.retryCounter ∧ (s.decideDeferred region).linkOut = s.linkOut ∧
    (s.decideDeferred region).completion = s.completion ∧ (s.decideDeferred region).ckptLatch = s.ckptLatch ∧
    (s.decideDeferred region).log = s.log ∧ (s.decideDeferred region).dropped = s.dropped ∧
    (s.decideDeferred region).alertMask = s.alertMask ∧ (s.decideDeferred region).freeCount = s.freeCount := by
  unfold State.decideDeferred
  all_goals try dsimp only
  all_goals repeat' split
  all_goals simp

@[simp] theorem State.decideIfDue_frame (s : State) :
    (s.decideIfDue).recoveryMark = s.recoveryMark ∧
    (s.decideIfDue).pending = s.pending ∧ (s.decideIfDue).inReset = s.inReset ∧
    (s.decideIfDue).operating = s.operating ∧ (s.decideIfDue).pfw = s.pfw ∧
    (s.decideIfDue).ckptHigh = s.ckptHigh ∧ (s.decideIfDue).mem = s.mem ∧ (s.decideIfDue).journal = s.journal ∧
    (s.decideIfDue).epoch = s.epoch ∧ (s.decideIfDue).anchorA = s.anchorA ∧ (s.decideIfDue).anchorB = s.anchorB ∧
    (s.decideIfDue).slots = s.slots ∧ (s.decideIfDue).slotHeaders = s.slotHeaders ∧
    (s.decideIfDue).index = s.index ∧ (s.decideIfDue).stack = s.stack ∧
    (s.decideIfDue).nextSequence = s.nextSequence ∧ (s.decideIfDue).exhausted = s.exhausted ∧
    (s.decideIfDue).headerMark = s.headerMark ∧ (s.decideIfDue).longOp = s.longOp ∧
    (s.decideIfDue).maint = s.maint ∧ (s.decideIfDue).active = s.active ∧ (s.decideIfDue).staging = s.staging ∧
    (s.decideIfDue).copyA = s.copyA ∧ (s.decideIfDue).copyB = s.copyB ∧
    (s.decideIfDue).designation = s.designation ∧ (s.decideIfDue).configDegraded = s.configDegraded ∧
    (s.decideIfDue).activationDue = s.activationDue ∧ (s.decideIfDue).held = s.held ∧
    (s.decideIfDue).pendingRead = s.pendingRead ∧ (s.decideIfDue).queue = s.queue ∧
    (s.decideIfDue).nextAcceptance = s.nextAcceptance ∧ (s.decideIfDue).mark = s.mark ∧
    (s.decideIfDue).frontResponse = s.frontResponse ∧ (s.decideIfDue).job = s.job ∧
    (s.decideIfDue).parked = s.parked ∧ (s.decideIfDue).readHeld = s.readHeld ∧
    (s.decideIfDue).headHeld = s.headHeld ∧ (s.decideIfDue).port = s.port ∧
    (s.decideIfDue).waitFront = s.waitFront ∧ (s.decideIfDue).waitMaint = s.waitMaint ∧
    (s.decideIfDue).lastServed = s.lastServed ∧ (s.decideIfDue).retryCounter = s.retryCounter ∧
    (s.decideIfDue).linkOut = s.linkOut ∧ (s.decideIfDue).completion = s.completion ∧
    (s.decideIfDue).ckptLatch = s.ckptLatch ∧ (s.decideIfDue).log = s.log ∧ (s.decideIfDue).dropped = s.dropped ∧
    (s.decideIfDue).alertMask = s.alertMask ∧ (s.decideIfDue).freeCount = s.freeCount := by
  unfold State.decideIfDue
  all_goals try dsimp only
  all_goals repeat' split
  all_goals simp

@[simp] theorem State.writeAnchor_frame (s : State) (goal : AnchorGoal) (c : Copy) (epoch : Word) :
    (s.writeAnchor goal c epoch).recoveryMark = s.recoveryMark ∧
    (s.writeAnchor goal c epoch).pending = s.pending ∧ (s.writeAnchor goal c epoch).inReset = s.inReset ∧
    (s.writeAnchor goal c epoch).operating = s.operating ∧ (s.writeAnchor goal c epoch).pfw = s.pfw ∧
    (s.writeAnchor goal c epoch).ckptHigh = s.ckptHigh ∧ (s.writeAnchor goal c epoch).mem = s.mem ∧
    (s.writeAnchor goal c epoch).journal = s.journal ∧ (s.writeAnchor goal c epoch).epoch = s.epoch ∧
    (s.writeAnchor goal c epoch).slots = s.slots ∧ (s.writeAnchor goal c epoch).slotHeaders = s.slotHeaders ∧
    (s.writeAnchor goal c epoch).index = s.index ∧ (s.writeAnchor goal c epoch).stack = s.stack ∧
    (s.writeAnchor goal c epoch).nextSequence = s.nextSequence ∧
    (s.writeAnchor goal c epoch).exhausted = s.exhausted ∧
    (s.writeAnchor goal c epoch).headerMark = s.headerMark ∧ (s.writeAnchor goal c epoch).longOp = s.longOp ∧
    (s.writeAnchor goal c epoch).active = s.active ∧ (s.writeAnchor goal c epoch).staging = s.staging ∧
    (s.writeAnchor goal c epoch).copyA = s.copyA ∧ (s.writeAnchor goal c epoch).copyB = s.copyB ∧
    (s.writeAnchor goal c epoch).designation = s.designation ∧
    (s.writeAnchor goal c epoch).configDegraded = s.configDegraded ∧
    (s.writeAnchor goal c epoch).activationDue = s.activationDue ∧
    (s.writeAnchor goal c epoch).freeze = s.freeze ∧
    (s.writeAnchor goal c epoch).deferredFreeze = s.deferredFreeze ∧ (s.writeAnchor goal c epoch).held = s.held ∧
    (s.writeAnchor goal c epoch).pendingRead = s.pendingRead ∧ (s.writeAnchor goal c epoch).queue = s.queue ∧
    (s.writeAnchor goal c epoch).nextAcceptance = s.nextAcceptance ∧ (s.writeAnchor goal c epoch).mark = s.mark ∧
    (s.writeAnchor goal c epoch).frontResponse = s.frontResponse ∧ (s.writeAnchor goal c epoch).job = s.job ∧
    (s.writeAnchor goal c epoch).parked = s.parked ∧ (s.writeAnchor goal c epoch).readHeld = s.readHeld ∧
    (s.writeAnchor goal c epoch).headHeld = s.headHeld ∧
    (s.writeAnchor goal c epoch).retryCounter = s.retryCounter ∧
    (s.writeAnchor goal c epoch).response = s.response ∧ (s.writeAnchor goal c epoch).linkOut = s.linkOut ∧
    (s.writeAnchor goal c epoch).completion = s.completion ∧
    (s.writeAnchor goal c epoch).ckptLatch = s.ckptLatch ∧ (s.writeAnchor goal c epoch).log = s.log ∧
    (s.writeAnchor goal c epoch).dropped = s.dropped ∧ (s.writeAnchor goal c epoch).alertMask = s.alertMask ∧
    (s.writeAnchor goal c epoch).freeCount = s.freeCount := by
  unfold State.writeAnchor
  all_goals try dsimp only
  all_goals repeat' split
  all_goals simp

@[simp] theorem State.writeWipe_frame (s : State) (k : Nat) (forFormat : Bool) :
    (s.writeWipe k forFormat).recoveryMark = s.recoveryMark ∧
    (s.writeWipe k forFormat).pending = s.pending ∧ (s.writeWipe k forFormat).inReset = s.inReset ∧
    (s.writeWipe k forFormat).operating = s.operating ∧ (s.writeWipe k forFormat).pfw = s.pfw ∧
    (s.writeWipe k forFormat).ckptHigh = s.ckptHigh ∧ (s.writeWipe k forFormat).mem = s.mem ∧
    (s.writeWipe k forFormat).journal = s.journal ∧ (s.writeWipe k forFormat).epoch = s.epoch ∧
    (s.writeWipe k forFormat).anchorA = s.anchorA ∧ (s.writeWipe k forFormat).anchorB = s.anchorB ∧
    (s.writeWipe k forFormat).slots = s.slots ∧ (s.writeWipe k forFormat).slotHeaders = s.slotHeaders ∧
    (s.writeWipe k forFormat).index = s.index ∧ (s.writeWipe k forFormat).stack = s.stack ∧
    (s.writeWipe k forFormat).nextSequence = s.nextSequence ∧ (s.writeWipe k forFormat).exhausted = s.exhausted ∧
    (s.writeWipe k forFormat).headerMark = s.headerMark ∧ (s.writeWipe k forFormat).longOp = s.longOp ∧
    (s.writeWipe k forFormat).active = s.active ∧ (s.writeWipe k forFormat).staging = s.staging ∧
    (s.writeWipe k forFormat).copyA = s.copyA ∧ (s.writeWipe k forFormat).copyB = s.copyB ∧
    (s.writeWipe k forFormat).designation = s.designation ∧
    (s.writeWipe k forFormat).configDegraded = s.configDegraded ∧
    (s.writeWipe k forFormat).activationDue = s.activationDue ∧ (s.writeWipe k forFormat).freeze = s.freeze ∧
    (s.writeWipe k forFormat).deferredFreeze = s.deferredFreeze ∧ (s.writeWipe k forFormat).held = s.held ∧
    (s.writeWipe k forFormat).pendingRead = s.pendingRead ∧ (s.writeWipe k forFormat).queue = s.queue ∧
    (s.writeWipe k forFormat).nextAcceptance = s.nextAcceptance ∧ (s.writeWipe k forFormat).mark = s.mark ∧
    (s.writeWipe k forFormat).frontResponse = s.frontResponse ∧ (s.writeWipe k forFormat).job = s.job ∧
    (s.writeWipe k forFormat).parked = s.parked ∧ (s.writeWipe k forFormat).readHeld = s.readHeld ∧
    (s.writeWipe k forFormat).headHeld = s.headHeld ∧ (s.writeWipe k forFormat).retryCounter = s.retryCounter ∧
    (s.writeWipe k forFormat).response = s.response ∧ (s.writeWipe k forFormat).linkOut = s.linkOut ∧
    (s.writeWipe k forFormat).completion = s.completion ∧ (s.writeWipe k forFormat).ckptLatch = s.ckptLatch ∧
    (s.writeWipe k forFormat).log = s.log ∧ (s.writeWipe k forFormat).dropped = s.dropped ∧
    (s.writeWipe k forFormat).alertMask = s.alertMask ∧ (s.writeWipe k forFormat).freeCount = s.freeCount := by
  unfold State.writeWipe
  all_goals try dsimp only
  all_goals repeat' split
  all_goals simp

@[simp] theorem State.startAdvance_frame (s : State) :
    (s.startAdvance).recoveryMark = s.recoveryMark ∧
    (s.startAdvance).pending = s.pending ∧ (s.startAdvance).inReset = s.inReset ∧
    (s.startAdvance).operating = s.operating ∧ (s.startAdvance).pfw = s.pfw ∧
    (s.startAdvance).ckptHigh = s.ckptHigh ∧ (s.startAdvance).mem = s.mem ∧ (s.startAdvance).journal = s.journal ∧
    (s.startAdvance).epoch = s.epoch ∧ (s.startAdvance).slots = s.slots ∧
    (s.startAdvance).slotHeaders = s.slotHeaders ∧ (s.startAdvance).index = s.index ∧
    (s.startAdvance).stack = s.stack ∧ (s.startAdvance).nextSequence = s.nextSequence ∧
    (s.startAdvance).exhausted = s.exhausted ∧ (s.startAdvance).headerMark = s.headerMark ∧
    (s.startAdvance).longOp = s.longOp ∧ (s.startAdvance).active = s.active ∧
    (s.startAdvance).staging = s.staging ∧ (s.startAdvance).copyA = s.copyA ∧ (s.startAdvance).copyB = s.copyB ∧
    (s.startAdvance).designation = s.designation ∧ (s.startAdvance).configDegraded = s.configDegraded ∧
    (s.startAdvance).activationDue = s.activationDue ∧ (s.startAdvance).freeze = s.freeze ∧
    (s.startAdvance).deferredFreeze = s.deferredFreeze ∧ (s.startAdvance).held = s.held ∧
    (s.startAdvance).pendingRead = s.pendingRead ∧ (s.startAdvance).queue = s.queue ∧
    (s.startAdvance).nextAcceptance = s.nextAcceptance ∧ (s.startAdvance).mark = s.mark ∧
    (s.startAdvance).frontResponse = s.frontResponse ∧ (s.startAdvance).job = s.job ∧
    (s.startAdvance).parked = s.parked ∧ (s.startAdvance).readHeld = s.readHeld ∧
    (s.startAdvance).headHeld = s.headHeld ∧ (s.startAdvance).retryCounter = s.retryCounter ∧
    (s.startAdvance).response = s.response ∧ (s.startAdvance).linkOut = s.linkOut ∧
    (s.startAdvance).completion = s.completion ∧ (s.startAdvance).ckptLatch = s.ckptLatch ∧
    (s.startAdvance).log = s.log ∧ (s.startAdvance).dropped = s.dropped ∧
    (s.startAdvance).alertMask = s.alertMask ∧ (s.startAdvance).freeCount = s.freeCount := by
  unfold State.startAdvance
  all_goals try dsimp only
  all_goals repeat' split
  all_goals simp

@[simp] theorem State.advanceSucceeded_frame (s : State) (epoch : Word) :
    (s.advanceSucceeded epoch).pending = s.pending ∧ (s.advanceSucceeded epoch).inReset = s.inReset ∧
    (s.advanceSucceeded epoch).pfw = s.pfw ∧ (s.advanceSucceeded epoch).ckptHigh = s.ckptHigh ∧
    (s.advanceSucceeded epoch).mem = s.mem ∧ (s.advanceSucceeded epoch).anchorA = s.anchorA ∧
    (s.advanceSucceeded epoch).anchorB = s.anchorB ∧ (s.advanceSucceeded epoch).active = s.active ∧
    (s.advanceSucceeded epoch).staging = s.staging ∧ (s.advanceSucceeded epoch).copyA = s.copyA ∧
    (s.advanceSucceeded epoch).copyB = s.copyB ∧ (s.advanceSucceeded epoch).designation = s.designation ∧
    (s.advanceSucceeded epoch).configDegraded = s.configDegraded ∧
    (s.advanceSucceeded epoch).activationDue = s.activationDue ∧ (s.advanceSucceeded epoch).freeze = s.freeze ∧
    (s.advanceSucceeded epoch).deferredFreeze = s.deferredFreeze ∧ (s.advanceSucceeded epoch).held = s.held ∧
    (s.advanceSucceeded epoch).pendingRead = s.pendingRead ∧
    (s.advanceSucceeded epoch).nextAcceptance = s.nextAcceptance ∧ (s.advanceSucceeded epoch).job = s.job ∧
    (s.advanceSucceeded epoch).port = s.port ∧ (s.advanceSucceeded epoch).waitFront = s.waitFront ∧
    (s.advanceSucceeded epoch).waitMaint = s.waitMaint ∧ (s.advanceSucceeded epoch).lastServed = s.lastServed ∧
    (s.advanceSucceeded epoch).retryCounter = s.retryCounter ∧ (s.advanceSucceeded epoch).response = s.response ∧
    (s.advanceSucceeded epoch).linkOut = s.linkOut ∧ (s.advanceSucceeded epoch).alertMask = s.alertMask ∧
    (s.advanceSucceeded epoch).freeCount = s.freeCount := by
  unfold State.advanceSucceeded
  all_goals try dsimp only
  all_goals repeat' split
  all_goals simp

@[simp] theorem State.advanceFailed_frame (s : State) (notWritten : Bool) (kind : FaultKind) :
    (s.advanceFailed notWritten kind).pending = s.pending ∧
    (s.advanceFailed notWritten kind).inReset = s.inReset ∧ (s.advanceFailed notWritten kind).pfw = s.pfw ∧
    (s.advanceFailed notWritten kind).ckptHigh = s.ckptHigh ∧ (s.advanceFailed notWritten kind).mem = s.mem ∧
    (s.advanceFailed notWritten kind).epoch = s.epoch ∧ (s.advanceFailed notWritten kind).anchorA = s.anchorA ∧
    (s.advanceFailed notWritten kind).anchorB = s.anchorB ∧ (s.advanceFailed notWritten kind).slots = s.slots ∧ (s.advanceFailed notWritten kind).slotHeaders = s.slotHeaders ∧
    (s.advanceFailed notWritten kind).index = s.index ∧ (s.advanceFailed notWritten kind).stack = s.stack ∧
    (s.advanceFailed notWritten kind).nextSequence = s.nextSequence ∧
    (s.advanceFailed notWritten kind).exhausted = s.exhausted ∧

    (s.advanceFailed notWritten kind).active = s.active ∧
    (s.advanceFailed notWritten kind).staging = s.staging ∧ (s.advanceFailed notWritten kind).copyA = s.copyA ∧
    (s.advanceFailed notWritten kind).copyB = s.copyB ∧
    (s.advanceFailed notWritten kind).designation = s.designation ∧
    (s.advanceFailed notWritten kind).configDegraded = s.configDegraded ∧
    (s.advanceFailed notWritten kind).activationDue = s.activationDue ∧
    (s.advanceFailed notWritten kind).freeze = s.freeze ∧
    (s.advanceFailed notWritten kind).deferredFreeze = s.deferredFreeze ∧
    (s.advanceFailed notWritten kind).held = s.held ∧
    (s.advanceFailed notWritten kind).pendingRead = s.pendingRead ∧
    (s.advanceFailed notWritten kind).nextAcceptance = s.nextAcceptance ∧
    (s.advanceFailed notWritten kind).job = s.job ∧ (s.advanceFailed notWritten kind).port = s.port ∧
    (s.advanceFailed notWritten kind).waitFront = s.waitFront ∧
    (s.advanceFailed notWritten kind).waitMaint = s.waitMaint ∧
    (s.advanceFailed notWritten kind).lastServed = s.lastServed ∧
    (s.advanceFailed notWritten kind).retryCounter = s.retryCounter ∧
    (s.advanceFailed notWritten kind).response = s.response ∧
    (s.advanceFailed notWritten kind).linkOut = s.linkOut ∧
    (s.advanceFailed notWritten kind).alertMask = s.alertMask ∧
    (s.advanceFailed notWritten kind).freeCount = s.freeCount := by
  unfold State.advanceFailed
  all_goals try dsimp only
  all_goals repeat' split
  all_goals simp

@[simp] theorem State.journalLost_frame (s : State) (kind : FaultKind) :
    (s.journalLost kind).pending = s.pending ∧ (s.journalLost kind).inReset = s.inReset ∧
    (s.journalLost kind).pfw = s.pfw ∧ (s.journalLost kind).ckptHigh = s.ckptHigh ∧
    (s.journalLost kind).mem = s.mem ∧ (s.journalLost kind).epoch = s.epoch ∧
    (s.journalLost kind).anchorA = s.anchorA ∧ (s.journalLost kind).anchorB = s.anchorB ∧
    (s.journalLost kind).nextSequence = s.nextSequence ∧ (s.journalLost kind).exhausted = s.exhausted ∧
 (s.journalLost kind).active = s.active ∧
    (s.journalLost kind).staging = s.staging ∧ (s.journalLost kind).copyA = s.copyA ∧
    (s.journalLost kind).copyB = s.copyB ∧ (s.journalLost kind).designation = s.designation ∧
    (s.journalLost kind).configDegraded = s.configDegraded ∧
    (s.journalLost kind).activationDue = s.activationDue ∧ (s.journalLost kind).freeze = s.freeze ∧
    (s.journalLost kind).deferredFreeze = s.deferredFreeze ∧ (s.journalLost kind).held = s.held ∧
    (s.journalLost kind).pendingRead = s.pendingRead ∧ (s.journalLost kind).nextAcceptance = s.nextAcceptance ∧
    (s.journalLost kind).job = s.job ∧ (s.journalLost kind).port = s.port ∧
    (s.journalLost kind).waitFront = s.waitFront ∧ (s.journalLost kind).waitMaint = s.waitMaint ∧
    (s.journalLost kind).lastServed = s.lastServed ∧ (s.journalLost kind).retryCounter = s.retryCounter ∧
    (s.journalLost kind).response = s.response ∧ (s.journalLost kind).linkOut = s.linkOut ∧
    (s.journalLost kind).alertMask = s.alertMask ∧ (s.journalLost kind).freeCount = s.freeCount := by
  unfold State.journalLost
  all_goals try dsimp only
  all_goals repeat' split
  all_goals simp

@[simp] theorem State.restoreNext_frame (s : State) :
    (s.restoreNext).pending = s.pending ∧ (s.restoreNext).inReset = s.inReset ∧ (s.restoreNext).pfw = s.pfw ∧
    (s.restoreNext).ckptHigh = s.ckptHigh ∧ (s.restoreNext).mem = s.mem ∧ (s.restoreNext).epoch = s.epoch ∧
    (s.restoreNext).slots = s.slots ∧ (s.restoreNext).slotHeaders = s.slotHeaders ∧
    (s.restoreNext).index = s.index ∧ (s.restoreNext).stack = s.stack ∧
    (s.restoreNext).nextSequence = s.nextSequence ∧ (s.restoreNext).exhausted = s.exhausted ∧
    (s.restoreNext).headerMark = s.headerMark ∧ (s.restoreNext).active = s.active ∧
    (s.restoreNext).staging = s.staging ∧ (s.restoreNext).copyA = s.copyA ∧ (s.restoreNext).copyB = s.copyB ∧
    (s.restoreNext).designation = s.designation ∧ (s.restoreNext).configDegraded = s.configDegraded ∧
    (s.restoreNext).activationDue = s.activationDue ∧ (s.restoreNext).freeze = s.freeze ∧
    (s.restoreNext).deferredFreeze = s.deferredFreeze ∧ (s.restoreNext).held = s.held ∧
    (s.restoreNext).pendingRead = s.pendingRead ∧ (s.restoreNext).nextAcceptance = s.nextAcceptance ∧
    (s.restoreNext).job = s.job ∧ (s.restoreNext).retryCounter = s.retryCounter ∧
    (s.restoreNext).response = s.response ∧ (s.restoreNext).linkOut = s.linkOut ∧
    (s.restoreNext).alertMask = s.alertMask ∧ (s.restoreNext).freeCount = s.freeCount := by
  unfold State.restoreNext
  all_goals try dsimp only
  all_goals repeat' split
  all_goals simp

@[simp] theorem State.restoreStopped_frame (s : State) (j : Nat) (kind : FaultKind) :
    (s.restoreStopped j kind).pending = s.pending ∧ (s.restoreStopped j kind).inReset = s.inReset ∧
    (s.restoreStopped j kind).pfw = s.pfw ∧ (s.restoreStopped j kind).ckptHigh = s.ckptHigh ∧
    (s.restoreStopped j kind).mem = s.mem ∧ (s.restoreStopped j kind).epoch = s.epoch ∧
    (s.restoreStopped j kind).anchorA = s.anchorA ∧ (s.restoreStopped j kind).anchorB = s.anchorB ∧
    (s.restoreStopped j kind).slots = s.slots ∧ (s.restoreStopped j kind).slotHeaders = s.slotHeaders ∧
    (s.restoreStopped j kind).index = s.index ∧ (s.restoreStopped j kind).stack = s.stack ∧
    (s.restoreStopped j kind).nextSequence = s.nextSequence ∧ (s.restoreStopped j kind).exhausted = s.exhausted ∧
    (s.restoreStopped j kind).active = s.active ∧ (s.restoreStopped j kind).staging = s.staging ∧
    (s.restoreStopped j kind).copyA = s.copyA ∧ (s.restoreStopped j kind).copyB = s.copyB ∧
    (s.restoreStopped j kind).designation = s.designation ∧
    (s.restoreStopped j kind).configDegraded = s.configDegraded ∧
    (s.restoreStopped j kind).activationDue = s.activationDue ∧ (s.restoreStopped j kind).freeze = s.freeze ∧
    (s.restoreStopped j kind).deferredFreeze = s.deferredFreeze ∧ (s.restoreStopped j kind).held = s.held ∧
    (s.restoreStopped j kind).pendingRead = s.pendingRead ∧
    (s.restoreStopped j kind).nextAcceptance = s.nextAcceptance ∧ (s.restoreStopped j kind).job = s.job ∧
    (s.restoreStopped j kind).port = s.port ∧ (s.restoreStopped j kind).waitFront = s.waitFront ∧
    (s.restoreStopped j kind).waitMaint = s.waitMaint ∧ (s.restoreStopped j kind).lastServed = s.lastServed ∧
    (s.restoreStopped j kind).retryCounter = s.retryCounter ∧ (s.restoreStopped j kind).response = s.response ∧
    (s.restoreStopped j kind).linkOut = s.linkOut ∧ (s.restoreStopped j kind).alertMask = s.alertMask ∧
    (s.restoreStopped j kind).freeCount = s.freeCount := by
  unfold State.restoreStopped
  all_goals try dsimp only
  all_goals repeat' split
  all_goals simp

@[simp] theorem State.imageRead_frame (s : State) (j : Nat) (image : Row) :
    (s.imageRead j image).pending = s.pending ∧ (s.imageRead j image).inReset = s.inReset ∧
    (s.imageRead j image).pfw = s.pfw ∧ (s.imageRead j image).ckptHigh = s.ckptHigh ∧
    (s.imageRead j image).mem = s.mem ∧ (s.imageRead j image).epoch = s.epoch ∧
    (s.imageRead j image).stack = s.stack ∧ (s.imageRead j image).nextSequence = s.nextSequence ∧
    (s.imageRead j image).exhausted = s.exhausted ∧ (s.imageRead j image).active = s.active ∧
    (s.imageRead j image).staging = s.staging ∧ (s.imageRead j image).copyA = s.copyA ∧
    (s.imageRead j image).copyB = s.copyB ∧ (s.imageRead j image).designation = s.designation ∧
    (s.imageRead j image).configDegraded = s.configDegraded ∧
    (s.imageRead j image).activationDue = s.activationDue ∧ (s.imageRead j image).freeze = s.freeze ∧
    (s.imageRead j image).deferredFreeze = s.deferredFreeze ∧ (s.imageRead j image).held = s.held ∧
    (s.imageRead j image).pendingRead = s.pendingRead ∧ (s.imageRead j image).nextAcceptance = s.nextAcceptance ∧
    (s.imageRead j image).job = s.job ∧ (s.imageRead j image).retryCounter = s.retryCounter ∧
    (s.imageRead j image).response = s.response ∧ (s.imageRead j image).linkOut = s.linkOut ∧
    (s.imageRead j image).alertMask = s.alertMask ∧ (s.imageRead j image).freeCount = s.freeCount := by
  unfold State.imageRead
  all_goals try dsimp only
  all_goals repeat' split
  all_goals simp

@[simp] theorem State.targetWritten_frame (s : State) :
    (s.targetWritten).pending = s.pending ∧ (s.targetWritten).inReset = s.inReset ∧
    (s.targetWritten).pfw = s.pfw ∧ (s.targetWritten).ckptHigh = s.ckptHigh ∧ (s.targetWritten).mem = s.mem ∧
    (s.targetWritten).epoch = s.epoch ∧ (s.targetWritten).stack = s.stack ∧
    (s.targetWritten).nextSequence = s.nextSequence ∧ (s.targetWritten).exhausted = s.exhausted ∧
    (s.targetWritten).headerMark = s.headerMark ∧ (s.targetWritten).active = s.active ∧
    (s.targetWritten).staging = s.staging ∧ (s.targetWritten).copyA = s.copyA ∧
    (s.targetWritten).copyB = s.copyB ∧ (s.targetWritten).designation = s.designation ∧
    (s.targetWritten).configDegraded = s.configDegraded ∧ (s.targetWritten).activationDue = s.activationDue ∧
    (s.targetWritten).freeze = s.freeze ∧ (s.targetWritten).deferredFreeze = s.deferredFreeze ∧
    (s.targetWritten).held = s.held ∧ (s.targetWritten).pendingRead = s.pendingRead ∧
    (s.targetWritten).nextAcceptance = s.nextAcceptance ∧ (s.targetWritten).job = s.job ∧
    (s.targetWritten).retryCounter = s.retryCounter ∧ (s.targetWritten).response = s.response ∧
    (s.targetWritten).linkOut = s.linkOut ∧ (s.targetWritten).alertMask = s.alertMask ∧
    (s.targetWritten).freeCount = s.freeCount := by
  unfold State.targetWritten
  all_goals try dsimp only
  all_goals repeat' split
  all_goals simp

@[simp] theorem State.enterRollingBack_frame (s : State) :
    (s.enterRollingBack).pending = s.pending ∧ (s.enterRollingBack).inReset = s.inReset ∧
    (s.enterRollingBack).pfw = s.pfw ∧ (s.enterRollingBack).ckptHigh = s.ckptHigh ∧
    (s.enterRollingBack).mem = s.mem ∧ (s.enterRollingBack).epoch = s.epoch ∧
    (s.enterRollingBack).slots = s.slots ∧ (s.enterRollingBack).slotHeaders = s.slotHeaders ∧
    (s.enterRollingBack).index = s.index ∧ (s.enterRollingBack).nextSequence = s.nextSequence ∧
    (s.enterRollingBack).exhausted = s.exhausted ∧ (s.enterRollingBack).headerMark = s.headerMark ∧
    (s.enterRollingBack).active = s.active ∧ (s.enterRollingBack).staging = s.staging ∧
    (s.enterRollingBack).copyA = s.copyA ∧ (s.enterRollingBack).copyB = s.copyB ∧
    (s.enterRollingBack).designation = s.designation ∧ (s.enterRollingBack).configDegraded = s.configDegraded ∧
    (s.enterRollingBack).activationDue = s.activationDue ∧ (s.enterRollingBack).freeze = s.freeze ∧
    (s.enterRollingBack).deferredFreeze = s.deferredFreeze ∧ (s.enterRollingBack).held = s.held ∧
    (s.enterRollingBack).pendingRead = s.pendingRead ∧ (s.enterRollingBack).nextAcceptance = s.nextAcceptance ∧
    (s.enterRollingBack).job = s.job ∧ (s.enterRollingBack).retryCounter = s.retryCounter ∧
    (s.enterRollingBack).response = s.response ∧ (s.enterRollingBack).linkOut = s.linkOut ∧
    (s.enterRollingBack).alertMask = s.alertMask ∧ (s.enterRollingBack).freeCount = s.freeCount := by
  unfold State.enterRollingBack
  all_goals try dsimp only
  all_goals repeat' split
  all_goals simp

@[simp] theorem State.enterFormatting_frame (s : State) :
    (s.enterFormatting).recoveryMark = s.recoveryMark ∧
    (s.enterFormatting).pending = s.pending ∧ (s.enterFormatting).inReset = s.inReset ∧
    (s.enterFormatting).operating = s.operating ∧ (s.enterFormatting).pfw = s.pfw ∧
    (s.enterFormatting).ckptHigh = s.ckptHigh ∧ (s.enterFormatting).mem = s.mem ∧
    (s.enterFormatting).epoch = s.epoch ∧ (s.enterFormatting).anchorA = s.anchorA ∧
    (s.enterFormatting).anchorB = s.anchorB ∧ (s.enterFormatting).nextSequence = s.nextSequence ∧
    (s.enterFormatting).exhausted = s.exhausted ∧ (s.enterFormatting).headerMark = s.headerMark ∧
    (s.enterFormatting).longOp = s.longOp ∧ (s.enterFormatting).active = s.active ∧
    (s.enterFormatting).staging = s.staging ∧ (s.enterFormatting).copyA = s.copyA ∧
    (s.enterFormatting).copyB = s.copyB ∧ (s.enterFormatting).designation = s.designation ∧
    (s.enterFormatting).configDegraded = s.configDegraded ∧ (s.enterFormatting).activationDue = s.activationDue ∧
    (s.enterFormatting).freeze = s.freeze ∧ (s.enterFormatting).deferredFreeze = s.deferredFreeze ∧
    (s.enterFormatting).held = s.held ∧ (s.enterFormatting).pendingRead = s.pendingRead ∧
    (s.enterFormatting).queue = s.queue ∧ (s.enterFormatting).nextAcceptance = s.nextAcceptance ∧
    (s.enterFormatting).mark = s.mark ∧ (s.enterFormatting).frontResponse = s.frontResponse ∧
    (s.enterFormatting).job = s.job ∧ (s.enterFormatting).parked = s.parked ∧
    (s.enterFormatting).retryCounter = s.retryCounter ∧ (s.enterFormatting).response = s.response ∧
    (s.enterFormatting).linkOut = s.linkOut ∧ (s.enterFormatting).completion = s.completion ∧
    (s.enterFormatting).ckptLatch = s.ckptLatch ∧ (s.enterFormatting).log = s.log ∧
    (s.enterFormatting).dropped = s.dropped ∧ (s.enterFormatting).alertMask = s.alertMask ∧
    (s.enterFormatting).freeCount = s.freeCount := by
  unfold State.enterFormatting
  all_goals try dsimp only
  all_goals repeat' split
  all_goals simp

@[simp] theorem State.formatFailed_frame (s : State) (kind : FaultKind) :
    (s.formatFailed kind).pending = s.pending ∧ (s.formatFailed kind).inReset = s.inReset ∧
    (s.formatFailed kind).pfw = s.pfw ∧ (s.formatFailed kind).ckptHigh = s.ckptHigh ∧
    (s.formatFailed kind).mem = s.mem ∧ (s.formatFailed kind).anchorA = s.anchorA ∧
    (s.formatFailed kind).anchorB = s.anchorB ∧ (s.formatFailed kind).slots = s.slots ∧ (s.formatFailed kind).slotHeaders = s.slotHeaders ∧
    (s.formatFailed kind).index = s.index ∧ (s.formatFailed kind).stack = s.stack ∧
    (s.formatFailed kind).nextSequence = s.nextSequence ∧ (s.formatFailed kind).exhausted = s.exhausted ∧
 (s.formatFailed kind).active = s.active ∧
    (s.formatFailed kind).staging = s.staging ∧ (s.formatFailed kind).copyA = s.copyA ∧
    (s.formatFailed kind).copyB = s.copyB ∧ (s.formatFailed kind).designation = s.designation ∧
    (s.formatFailed kind).configDegraded = s.configDegraded ∧
    (s.formatFailed kind).activationDue = s.activationDue ∧ (s.formatFailed kind).freeze = s.freeze ∧
    (s.formatFailed kind).deferredFreeze = s.deferredFreeze ∧ (s.formatFailed kind).held = s.held ∧
    (s.formatFailed kind).pendingRead = s.pendingRead ∧
    (s.formatFailed kind).nextAcceptance = s.nextAcceptance ∧ (s.formatFailed kind).job = s.job ∧
    (s.formatFailed kind).port = s.port ∧ (s.formatFailed kind).waitFront = s.waitFront ∧
    (s.formatFailed kind).waitMaint = s.waitMaint ∧ (s.formatFailed kind).lastServed = s.lastServed ∧
    (s.formatFailed kind).retryCounter = s.retryCounter ∧ (s.formatFailed kind).response = s.response ∧
    (s.formatFailed kind).linkOut = s.linkOut ∧ (s.formatFailed kind).alertMask = s.alertMask ∧
    (s.formatFailed kind).freeCount = s.freeCount := by
  unfold State.formatFailed
  all_goals try dsimp only
  all_goals repeat' split
  all_goals simp

@[simp] theorem State.formatSucceeded_frame (s : State) (epoch : Word) :
    (s.formatSucceeded epoch).pending = s.pending ∧ (s.formatSucceeded epoch).inReset = s.inReset ∧
    (s.formatSucceeded epoch).pfw = s.pfw ∧ (s.formatSucceeded epoch).ckptHigh = s.ckptHigh ∧
    (s.formatSucceeded epoch).mem = s.mem ∧ (s.formatSucceeded epoch).anchorA = s.anchorA ∧
    (s.formatSucceeded epoch).anchorB = s.anchorB ∧ (s.formatSucceeded epoch).slots = s.slots ∧
    (s.formatSucceeded epoch).slotHeaders = s.slotHeaders ∧ (s.formatSucceeded epoch).index = s.index ∧
    (s.formatSucceeded epoch).stack = s.stack ∧ (s.formatSucceeded epoch).active = s.active ∧
    (s.formatSucceeded epoch).staging = s.staging ∧ (s.formatSucceeded epoch).copyA = s.copyA ∧
    (s.formatSucceeded epoch).copyB = s.copyB ∧ (s.formatSucceeded epoch).designation = s.designation ∧
    (s.formatSucceeded epoch).configDegraded = s.configDegraded ∧
    (s.formatSucceeded epoch).activationDue = s.activationDue ∧ (s.formatSucceeded epoch).freeze = s.freeze ∧
    (s.formatSucceeded epoch).deferredFreeze = s.deferredFreeze ∧ (s.formatSucceeded epoch).held = s.held ∧
    (s.formatSucceeded epoch).pendingRead = s.pendingRead ∧
    (s.formatSucceeded epoch).nextAcceptance = s.nextAcceptance ∧ (s.formatSucceeded epoch).job = s.job ∧
    (s.formatSucceeded epoch).port = s.port ∧ (s.formatSucceeded epoch).waitFront = s.waitFront ∧
    (s.formatSucceeded epoch).waitMaint = s.waitMaint ∧ (s.formatSucceeded epoch).lastServed = s.lastServed ∧
    (s.formatSucceeded epoch).retryCounter = s.retryCounter ∧ (s.formatSucceeded epoch).response = s.response ∧
    (s.formatSucceeded epoch).linkOut = s.linkOut ∧ (s.formatSucceeded epoch).alertMask = s.alertMask ∧
    (s.formatSucceeded epoch).freeCount = s.freeCount := by
  unfold State.formatSucceeded
  all_goals try dsimp only
  all_goals repeat' split
  all_goals simp

@[simp] theorem State.formatScanned_frame (s : State) (greatest : Word) :
    (s.formatScanned greatest).recoveryMark = s.recoveryMark ∧
    (s.formatScanned greatest).pending = s.pending ∧ (s.formatScanned greatest).inReset = s.inReset ∧
    (s.formatScanned greatest).operating = s.operating ∧ (s.formatScanned greatest).pfw = s.pfw ∧
    (s.formatScanned greatest).ckptHigh = s.ckptHigh ∧ (s.formatScanned greatest).mem = s.mem ∧
    (s.formatScanned greatest).journal = s.journal ∧ (s.formatScanned greatest).epoch = s.epoch ∧
    (s.formatScanned greatest).slots = s.slots ∧ (s.formatScanned greatest).slotHeaders = s.slotHeaders ∧
    (s.formatScanned greatest).index = s.index ∧ (s.formatScanned greatest).stack = s.stack ∧
    (s.formatScanned greatest).nextSequence = s.nextSequence ∧
    (s.formatScanned greatest).exhausted = s.exhausted ∧ (s.formatScanned greatest).headerMark = s.headerMark ∧
    (s.formatScanned greatest).longOp = s.longOp ∧ (s.formatScanned greatest).active = s.active ∧
    (s.formatScanned greatest).staging = s.staging ∧ (s.formatScanned greatest).copyA = s.copyA ∧
    (s.formatScanned greatest).copyB = s.copyB ∧ (s.formatScanned greatest).designation = s.designation ∧
    (s.formatScanned greatest).configDegraded = s.configDegraded ∧
    (s.formatScanned greatest).activationDue = s.activationDue ∧ (s.formatScanned greatest).freeze = s.freeze ∧
    (s.formatScanned greatest).deferredFreeze = s.deferredFreeze ∧ (s.formatScanned greatest).held = s.held ∧
    (s.formatScanned greatest).pendingRead = s.pendingRead ∧ (s.formatScanned greatest).queue = s.queue ∧
    (s.formatScanned greatest).nextAcceptance = s.nextAcceptance ∧ (s.formatScanned greatest).mark = s.mark ∧
    (s.formatScanned greatest).frontResponse = s.frontResponse ∧ (s.formatScanned greatest).job = s.job ∧
    (s.formatScanned greatest).parked = s.parked ∧ (s.formatScanned greatest).readHeld = s.readHeld ∧
    (s.formatScanned greatest).headHeld = s.headHeld ∧ (s.formatScanned greatest).retryCounter = s.retryCounter ∧
    (s.formatScanned greatest).response = s.response ∧ (s.formatScanned greatest).linkOut = s.linkOut ∧
    (s.formatScanned greatest).completion = s.completion ∧ (s.formatScanned greatest).ckptLatch = s.ckptLatch ∧
    (s.formatScanned greatest).log = s.log ∧ (s.formatScanned greatest).dropped = s.dropped ∧
    (s.formatScanned greatest).alertMask = s.alertMask ∧ (s.formatScanned greatest).freeCount = s.freeCount := by
  unfold State.formatScanned
  all_goals try dsimp only
  all_goals repeat' split
  all_goals simp

@[simp] theorem State.formatHeaders_frame (s : State) (k : Nat) (greatest : Word) :
    (s.formatHeaders k greatest).recoveryMark = s.recoveryMark ∧
    (s.formatHeaders k greatest).pending = s.pending ∧ (s.formatHeaders k greatest).inReset = s.inReset ∧
    (s.formatHeaders k greatest).operating = s.operating ∧ (s.formatHeaders k greatest).pfw = s.pfw ∧
    (s.formatHeaders k greatest).ckptHigh = s.ckptHigh ∧ (s.formatHeaders k greatest).mem = s.mem ∧
    (s.formatHeaders k greatest).journal = s.journal ∧ (s.formatHeaders k greatest).epoch = s.epoch ∧
    (s.formatHeaders k greatest).slots = s.slots ∧ (s.formatHeaders k greatest).slotHeaders = s.slotHeaders ∧
    (s.formatHeaders k greatest).index = s.index ∧ (s.formatHeaders k greatest).stack = s.stack ∧
    (s.formatHeaders k greatest).nextSequence = s.nextSequence ∧
    (s.formatHeaders k greatest).exhausted = s.exhausted ∧
    (s.formatHeaders k greatest).headerMark = s.headerMark ∧ (s.formatHeaders k greatest).longOp = s.longOp ∧
    (s.formatHeaders k greatest).active = s.active ∧ (s.formatHeaders k greatest).staging = s.staging ∧
    (s.formatHeaders k greatest).copyA = s.copyA ∧ (s.formatHeaders k greatest).copyB = s.copyB ∧
    (s.formatHeaders k greatest).designation = s.designation ∧
    (s.formatHeaders k greatest).configDegraded = s.configDegraded ∧
    (s.formatHeaders k greatest).activationDue = s.activationDue ∧
    (s.formatHeaders k greatest).freeze = s.freeze ∧
    (s.formatHeaders k greatest).deferredFreeze = s.deferredFreeze ∧ (s.formatHeaders k greatest).held = s.held ∧
    (s.formatHeaders k greatest).pendingRead = s.pendingRead ∧ (s.formatHeaders k greatest).queue = s.queue ∧
    (s.formatHeaders k greatest).nextAcceptance = s.nextAcceptance ∧ (s.formatHeaders k greatest).mark = s.mark ∧
    (s.formatHeaders k greatest).frontResponse = s.frontResponse ∧ (s.formatHeaders k greatest).job = s.job ∧
    (s.formatHeaders k greatest).parked = s.parked ∧ (s.formatHeaders k greatest).readHeld = s.readHeld ∧
    (s.formatHeaders k greatest).headHeld = s.headHeld ∧
    (s.formatHeaders k greatest).retryCounter = s.retryCounter ∧
    (s.formatHeaders k greatest).response = s.response ∧ (s.formatHeaders k greatest).linkOut = s.linkOut ∧
    (s.formatHeaders k greatest).completion = s.completion ∧
    (s.formatHeaders k greatest).ckptLatch = s.ckptLatch ∧ (s.formatHeaders k greatest).log = s.log ∧
    (s.formatHeaders k greatest).dropped = s.dropped ∧ (s.formatHeaders k greatest).alertMask = s.alertMask ∧
    (s.formatHeaders k greatest).freeCount = s.freeCount := by
  unfold State.formatHeaders
  all_goals try dsimp only
  all_goals repeat' split
  all_goals simp

@[simp] theorem State.formatAnchorRead_frame (s : State) (c : Copy) (greatest : Word) :
    (s.formatAnchorRead c greatest).recoveryMark = s.recoveryMark ∧
    (s.formatAnchorRead c greatest).pending = s.pending ∧ (s.formatAnchorRead c greatest).inReset = s.inReset ∧
    (s.formatAnchorRead c greatest).operating = s.operating ∧ (s.formatAnchorRead c greatest).pfw = s.pfw ∧
    (s.formatAnchorRead c greatest).ckptHigh = s.ckptHigh ∧ (s.formatAnchorRead c greatest).mem = s.mem ∧
    (s.formatAnchorRead c greatest).journal = s.journal ∧ (s.formatAnchorRead c greatest).epoch = s.epoch ∧
    (s.formatAnchorRead c greatest).slots = s.slots ∧
    (s.formatAnchorRead c greatest).slotHeaders = s.slotHeaders ∧
    (s.formatAnchorRead c greatest).index = s.index ∧ (s.formatAnchorRead c greatest).stack = s.stack ∧
    (s.formatAnchorRead c greatest).nextSequence = s.nextSequence ∧
    (s.formatAnchorRead c greatest).exhausted = s.exhausted ∧
    (s.formatAnchorRead c greatest).headerMark = s.headerMark ∧
    (s.formatAnchorRead c greatest).longOp = s.longOp ∧ (s.formatAnchorRead c greatest).active = s.active ∧
    (s.formatAnchorRead c greatest).staging = s.staging ∧ (s.formatAnchorRead c greatest).copyA = s.copyA ∧
    (s.formatAnchorRead c greatest).copyB = s.copyB ∧
    (s.formatAnchorRead c greatest).designation = s.designation ∧
    (s.formatAnchorRead c greatest).configDegraded = s.configDegraded ∧
    (s.formatAnchorRead c greatest).activationDue = s.activationDue ∧
    (s.formatAnchorRead c greatest).freeze = s.freeze ∧
    (s.formatAnchorRead c greatest).deferredFreeze = s.deferredFreeze ∧
    (s.formatAnchorRead c greatest).held = s.held ∧ (s.formatAnchorRead c greatest).pendingRead = s.pendingRead ∧
    (s.formatAnchorRead c greatest).queue = s.queue ∧
    (s.formatAnchorRead c greatest).nextAcceptance = s.nextAcceptance ∧
    (s.formatAnchorRead c greatest).mark = s.mark ∧
    (s.formatAnchorRead c greatest).frontResponse = s.frontResponse ∧
    (s.formatAnchorRead c greatest).job = s.job ∧ (s.formatAnchorRead c greatest).parked = s.parked ∧
    (s.formatAnchorRead c greatest).readHeld = s.readHeld ∧
    (s.formatAnchorRead c greatest).headHeld = s.headHeld ∧
    (s.formatAnchorRead c greatest).retryCounter = s.retryCounter ∧
    (s.formatAnchorRead c greatest).response = s.response ∧ (s.formatAnchorRead c greatest).linkOut = s.linkOut ∧
    (s.formatAnchorRead c greatest).completion = s.completion ∧
    (s.formatAnchorRead c greatest).ckptLatch = s.ckptLatch ∧ (s.formatAnchorRead c greatest).log = s.log ∧
    (s.formatAnchorRead c greatest).dropped = s.dropped ∧
    (s.formatAnchorRead c greatest).alertMask = s.alertMask ∧
    (s.formatAnchorRead c greatest).freeCount = s.freeCount := by
  unfold State.formatAnchorRead
  all_goals try dsimp only
  all_goals repeat' split
  all_goals simp

@[simp] theorem State.anchorConfirmed_frame (s : State) (goal : AnchorGoal) (c : Copy) (epoch : Word) :
    (s.anchorConfirmed goal c epoch).pending = s.pending ∧ (s.anchorConfirmed goal c epoch).inReset = s.inReset ∧
    (s.anchorConfirmed goal c epoch).pfw = s.pfw ∧ (s.anchorConfirmed goal c epoch).ckptHigh = s.ckptHigh ∧
    (s.anchorConfirmed goal c epoch).mem = s.mem ∧ (s.anchorConfirmed goal c epoch).active = s.active ∧
    (s.anchorConfirmed goal c epoch).staging = s.staging ∧ (s.anchorConfirmed goal c epoch).copyA = s.copyA ∧
    (s.anchorConfirmed goal c epoch).copyB = s.copyB ∧
    (s.anchorConfirmed goal c epoch).designation = s.designation ∧
    (s.anchorConfirmed goal c epoch).configDegraded = s.configDegraded ∧
    (s.anchorConfirmed goal c epoch).activationDue = s.activationDue ∧
    (s.anchorConfirmed goal c epoch).freeze = s.freeze ∧
    (s.anchorConfirmed goal c epoch).deferredFreeze = s.deferredFreeze ∧
    (s.anchorConfirmed goal c epoch).held = s.held ∧
    (s.anchorConfirmed goal c epoch).pendingRead = s.pendingRead ∧
    (s.anchorConfirmed goal c epoch).nextAcceptance = s.nextAcceptance ∧
    (s.anchorConfirmed goal c epoch).job = s.job ∧
    (s.anchorConfirmed goal c epoch).retryCounter = s.retryCounter ∧
    (s.anchorConfirmed goal c epoch).response = s.response ∧
    (s.anchorConfirmed goal c epoch).linkOut = s.linkOut ∧
    (s.anchorConfirmed goal c epoch).alertMask = s.alertMask ∧
    (s.anchorConfirmed goal c epoch).freeCount = s.freeCount := by
  unfold State.anchorConfirmed
  all_goals try dsimp only
  all_goals repeat' split
  all_goals simp

@[simp] theorem State.anchorFailed_frame (s : State) (goal : AnchorGoal) (c : Copy) (notWritten : Bool) (kind : FaultKind) :
    (s.anchorFailed goal c notWritten kind).pending = s.pending ∧
    (s.anchorFailed goal c notWritten kind).inReset = s.inReset ∧
    (s.anchorFailed goal c notWritten kind).pfw = s.pfw ∧
    (s.anchorFailed goal c notWritten kind).ckptHigh = s.ckptHigh ∧
    (s.anchorFailed goal c notWritten kind).mem = s.mem ∧
    (s.anchorFailed goal c notWritten kind).anchorA = s.anchorA ∧
    (s.anchorFailed goal c notWritten kind).anchorB = s.anchorB ∧
    (s.anchorFailed goal c notWritten kind).nextSequence = s.nextSequence ∧
    (s.anchorFailed goal c notWritten kind).exhausted = s.exhausted ∧

    (s.anchorFailed goal c notWritten kind).active = s.active ∧
    (s.anchorFailed goal c notWritten kind).staging = s.staging ∧
    (s.anchorFailed goal c notWritten kind).copyA = s.copyA ∧
    (s.anchorFailed goal c notWritten kind).copyB = s.copyB ∧
    (s.anchorFailed goal c notWritten kind).designation = s.designation ∧
    (s.anchorFailed goal c notWritten kind).configDegraded = s.configDegraded ∧
    (s.anchorFailed goal c notWritten kind).activationDue = s.activationDue ∧
    (s.anchorFailed goal c notWritten kind).freeze = s.freeze ∧
    (s.anchorFailed goal c notWritten kind).deferredFreeze = s.deferredFreeze ∧
    (s.anchorFailed goal c notWritten kind).held = s.held ∧
    (s.anchorFailed goal c notWritten kind).pendingRead = s.pendingRead ∧
    (s.anchorFailed goal c notWritten kind).nextAcceptance = s.nextAcceptance ∧
    (s.anchorFailed goal c notWritten kind).job = s.job ∧
    (s.anchorFailed goal c notWritten kind).port = s.port ∧
    (s.anchorFailed goal c notWritten kind).waitFront = s.waitFront ∧
    (s.anchorFailed goal c notWritten kind).waitMaint = s.waitMaint ∧
    (s.anchorFailed goal c notWritten kind).lastServed = s.lastServed ∧
    (s.anchorFailed goal c notWritten kind).retryCounter = s.retryCounter ∧
    (s.anchorFailed goal c notWritten kind).response = s.response ∧
    (s.anchorFailed goal c notWritten kind).linkOut = s.linkOut ∧
    (s.anchorFailed goal c notWritten kind).alertMask = s.alertMask ∧
    (s.anchorFailed goal c notWritten kind).freeCount = s.freeCount := by
  unfold State.anchorFailed
  all_goals try dsimp only
  all_goals repeat' split
  all_goals simp

@[simp] theorem State.anchorReadBack_frame (s : State) (goal : AnchorGoal) (c : Copy) (epoch : Word) (r : Row) :
    (s.anchorReadBack goal c epoch r).pending = s.pending ∧
    (s.anchorReadBack goal c epoch r).inReset = s.inReset ∧ (s.anchorReadBack goal c epoch r).pfw = s.pfw ∧
    (s.anchorReadBack goal c epoch r).ckptHigh = s.ckptHigh ∧ (s.anchorReadBack goal c epoch r).mem = s.mem ∧
    (s.anchorReadBack goal c epoch r).active = s.active ∧ (s.anchorReadBack goal c epoch r).staging = s.staging ∧
    (s.anchorReadBack goal c epoch r).copyA = s.copyA ∧ (s.anchorReadBack goal c epoch r).copyB = s.copyB ∧
    (s.anchorReadBack goal c epoch r).designation = s.designation ∧
    (s.anchorReadBack goal c epoch r).configDegraded = s.configDegraded ∧
    (s.anchorReadBack goal c epoch r).activationDue = s.activationDue ∧
    (s.anchorReadBack goal c epoch r).freeze = s.freeze ∧
    (s.anchorReadBack goal c epoch r).deferredFreeze = s.deferredFreeze ∧
    (s.anchorReadBack goal c epoch r).held = s.held ∧
    (s.anchorReadBack goal c epoch r).pendingRead = s.pendingRead ∧
    (s.anchorReadBack goal c epoch r).nextAcceptance = s.nextAcceptance ∧
    (s.anchorReadBack goal c epoch r).job = s.job ∧
    (s.anchorReadBack goal c epoch r).retryCounter = s.retryCounter ∧
    (s.anchorReadBack goal c epoch r).response = s.response ∧
    (s.anchorReadBack goal c epoch r).linkOut = s.linkOut ∧
    (s.anchorReadBack goal c epoch r).alertMask = s.alertMask ∧
    (s.anchorReadBack goal c epoch r).freeCount = s.freeCount := by
  unfold State.anchorReadBack
  all_goals try dsimp only
  all_goals repeat' split
  all_goals simp

@[simp] theorem State.wipeWritten_frame (s : State) (k : Nat) (forFormat : Bool) :
    (s.wipeWritten k forFormat).recoveryMark = s.recoveryMark ∧
    (s.wipeWritten k forFormat).pending = s.pending ∧ (s.wipeWritten k forFormat).inReset = s.inReset ∧
    (s.wipeWritten k forFormat).operating = s.operating ∧ (s.wipeWritten k forFormat).pfw = s.pfw ∧
    (s.wipeWritten k forFormat).ckptHigh = s.ckptHigh ∧ (s.wipeWritten k forFormat).mem = s.mem ∧
    (s.wipeWritten k forFormat).journal = s.journal ∧ (s.wipeWritten k forFormat).epoch = s.epoch ∧
    (s.wipeWritten k forFormat).slots = s.slots ∧ (s.wipeWritten k forFormat).slotHeaders = s.slotHeaders ∧
    (s.wipeWritten k forFormat).index = s.index ∧ (s.wipeWritten k forFormat).stack = s.stack ∧
    (s.wipeWritten k forFormat).nextSequence = s.nextSequence ∧
    (s.wipeWritten k forFormat).exhausted = s.exhausted ∧ (s.wipeWritten k forFormat).headerMark = s.headerMark ∧
    (s.wipeWritten k forFormat).longOp = s.longOp ∧ (s.wipeWritten k forFormat).active = s.active ∧
    (s.wipeWritten k forFormat).staging = s.staging ∧ (s.wipeWritten k forFormat).copyA = s.copyA ∧
    (s.wipeWritten k forFormat).copyB = s.copyB ∧ (s.wipeWritten k forFormat).designation = s.designation ∧
    (s.wipeWritten k forFormat).configDegraded = s.configDegraded ∧
    (s.wipeWritten k forFormat).activationDue = s.activationDue ∧ (s.wipeWritten k forFormat).freeze = s.freeze ∧
    (s.wipeWritten k forFormat).deferredFreeze = s.deferredFreeze ∧ (s.wipeWritten k forFormat).held = s.held ∧
    (s.wipeWritten k forFormat).pendingRead = s.pendingRead ∧ (s.wipeWritten k forFormat).queue = s.queue ∧
    (s.wipeWritten k forFormat).nextAcceptance = s.nextAcceptance ∧ (s.wipeWritten k forFormat).mark = s.mark ∧
    (s.wipeWritten k forFormat).frontResponse = s.frontResponse ∧ (s.wipeWritten k forFormat).job = s.job ∧
    (s.wipeWritten k forFormat).parked = s.parked ∧ (s.wipeWritten k forFormat).readHeld = s.readHeld ∧
    (s.wipeWritten k forFormat).headHeld = s.headHeld ∧
    (s.wipeWritten k forFormat).retryCounter = s.retryCounter ∧
    (s.wipeWritten k forFormat).response = s.response ∧ (s.wipeWritten k forFormat).linkOut = s.linkOut ∧
    (s.wipeWritten k forFormat).completion = s.completion ∧ (s.wipeWritten k forFormat).ckptLatch = s.ckptLatch ∧
    (s.wipeWritten k forFormat).log = s.log ∧ (s.wipeWritten k forFormat).dropped = s.dropped ∧
    (s.wipeWritten k forFormat).alertMask = s.alertMask ∧
    (s.wipeWritten k forFormat).freeCount = s.freeCount := by
  unfold State.wipeWritten
  all_goals try dsimp only
  all_goals repeat' split
  all_goals simp

@[simp] theorem State.wipeFailed_frame (s : State) (k : Nat) (forFormat : Bool) (kind : FaultKind) :
    (s.wipeFailed k forFormat kind).pending = s.pending ∧ (s.wipeFailed k forFormat kind).inReset = s.inReset ∧
    (s.wipeFailed k forFormat kind).pfw = s.pfw ∧ (s.wipeFailed k forFormat kind).ckptHigh = s.ckptHigh ∧
    (s.wipeFailed k forFormat kind).mem = s.mem ∧ (s.wipeFailed k forFormat kind).anchorA = s.anchorA ∧
    (s.wipeFailed k forFormat kind).anchorB = s.anchorB ∧
    (s.wipeFailed k forFormat kind).nextSequence = s.nextSequence ∧
    (s.wipeFailed k forFormat kind).exhausted = s.exhausted ∧

    (s.wipeFailed k forFormat kind).active = s.active ∧ (s.wipeFailed k forFormat kind).staging = s.staging ∧
    (s.wipeFailed k forFormat kind).copyA = s.copyA ∧ (s.wipeFailed k forFormat kind).copyB = s.copyB ∧
    (s.wipeFailed k forFormat kind).designation = s.designation ∧
    (s.wipeFailed k forFormat kind).configDegraded = s.configDegraded ∧
    (s.wipeFailed k forFormat kind).activationDue = s.activationDue ∧
    (s.wipeFailed k forFormat kind).freeze = s.freeze ∧
    (s.wipeFailed k forFormat kind).deferredFreeze = s.deferredFreeze ∧
    (s.wipeFailed k forFormat kind).held = s.held ∧
    (s.wipeFailed k forFormat kind).pendingRead = s.pendingRead ∧
    (s.wipeFailed k forFormat kind).nextAcceptance = s.nextAcceptance ∧
    (s.wipeFailed k forFormat kind).job = s.job ∧ (s.wipeFailed k forFormat kind).port = s.port ∧
    (s.wipeFailed k forFormat kind).waitFront = s.waitFront ∧
    (s.wipeFailed k forFormat kind).waitMaint = s.waitMaint ∧
    (s.wipeFailed k forFormat kind).lastServed = s.lastServed ∧
    (s.wipeFailed k forFormat kind).retryCounter = s.retryCounter ∧
    (s.wipeFailed k forFormat kind).response = s.response ∧
    (s.wipeFailed k forFormat kind).linkOut = s.linkOut ∧
    (s.wipeFailed k forFormat kind).alertMask = s.alertMask ∧
    (s.wipeFailed k forFormat kind).freeCount = s.freeCount := by
  unfold State.wipeFailed
  all_goals try dsimp only
  all_goals repeat' split
  all_goals simp

@[simp] theorem State.enterScanning_frame (s : State) :
    (s.enterScanning).recoveryMark = s.recoveryMark ∧
    (s.enterScanning).pending = s.pending ∧ (s.enterScanning).inReset = s.inReset ∧
    (s.enterScanning).operating = s.operating ∧ (s.enterScanning).pfw = s.pfw ∧
    (s.enterScanning).ckptHigh = s.ckptHigh ∧ (s.enterScanning).mem = s.mem ∧ (s.enterScanning).epoch = s.epoch ∧
    (s.enterScanning).anchorA = s.anchorA ∧ (s.enterScanning).anchorB = s.anchorB ∧
    (s.enterScanning).slots = s.slots ∧ (s.enterScanning).slotHeaders = s.slotHeaders ∧
    (s.enterScanning).index = s.index ∧ (s.enterScanning).stack = s.stack ∧
    (s.enterScanning).nextSequence = s.nextSequence ∧ (s.enterScanning).exhausted = s.exhausted ∧
    (s.enterScanning).headerMark = s.headerMark ∧ (s.enterScanning).active = s.active ∧
    (s.enterScanning).staging = s.staging ∧ (s.enterScanning).copyA = s.copyA ∧
    (s.enterScanning).copyB = s.copyB ∧ (s.enterScanning).designation = s.designation ∧
    (s.enterScanning).configDegraded = s.configDegraded ∧ (s.enterScanning).activationDue = s.activationDue ∧
    (s.enterScanning).freeze = s.freeze ∧ (s.enterScanning).deferredFreeze = s.deferredFreeze ∧
    (s.enterScanning).held = s.held ∧ (s.enterScanning).pendingRead = s.pendingRead ∧
    (s.enterScanning).queue = s.queue ∧ (s.enterScanning).nextAcceptance = s.nextAcceptance ∧
    (s.enterScanning).mark = s.mark ∧ (s.enterScanning).frontResponse = s.frontResponse ∧
    (s.enterScanning).job = s.job ∧ (s.enterScanning).parked = s.parked ∧
    (s.enterScanning).retryCounter = s.retryCounter ∧ (s.enterScanning).response = s.response ∧
    (s.enterScanning).linkOut = s.linkOut ∧ (s.enterScanning).completion = s.completion ∧
    (s.enterScanning).ckptLatch = s.ckptLatch ∧ (s.enterScanning).log = s.log ∧
    (s.enterScanning).dropped = s.dropped ∧ (s.enterScanning).alertMask = s.alertMask ∧
    (s.enterScanning).freeCount = s.freeCount := by
  unfold State.enterScanning
  all_goals try dsimp only
  all_goals repeat' split
  all_goals simp

@[simp] theorem State.endStartQuietly_frame (s : State) (journal : JournalState) :
    (s.endStartQuietly journal).recoveryMark = s.recoveryMark ∧
    (s.endStartQuietly journal).pending = s.pending ∧ (s.endStartQuietly journal).inReset = s.inReset ∧
    (s.endStartQuietly journal).pfw = s.pfw ∧ (s.endStartQuietly journal).ckptHigh = s.ckptHigh ∧
    (s.endStartQuietly journal).mem = s.mem ∧ (s.endStartQuietly journal).epoch = s.epoch ∧
    (s.endStartQuietly journal).anchorA = s.anchorA ∧ (s.endStartQuietly journal).anchorB = s.anchorB ∧
    (s.endStartQuietly journal).slots = s.slots ∧ (s.endStartQuietly journal).slotHeaders = s.slotHeaders ∧
    (s.endStartQuietly journal).index = s.index ∧ (s.endStartQuietly journal).stack = s.stack ∧
    (s.endStartQuietly journal).nextSequence = s.nextSequence ∧
    (s.endStartQuietly journal).exhausted = s.exhausted ∧ (s.endStartQuietly journal).headerMark = s.headerMark ∧
    (s.endStartQuietly journal).active = s.active ∧ (s.endStartQuietly journal).staging = s.staging ∧
    (s.endStartQuietly journal).copyA = s.copyA ∧ (s.endStartQuietly journal).copyB = s.copyB ∧
    (s.endStartQuietly journal).designation = s.designation ∧
    (s.endStartQuietly journal).configDegraded = s.configDegraded ∧
    (s.endStartQuietly journal).activationDue = s.activationDue ∧ (s.endStartQuietly journal).freeze = s.freeze ∧
    (s.endStartQuietly journal).deferredFreeze = s.deferredFreeze ∧ (s.endStartQuietly journal).held = s.held ∧
    (s.endStartQuietly journal).pendingRead = s.pendingRead ∧
    (s.endStartQuietly journal).nextAcceptance = s.nextAcceptance ∧ (s.endStartQuietly journal).job = s.job ∧
    (s.endStartQuietly journal).port = s.port ∧ (s.endStartQuietly journal).waitFront = s.waitFront ∧
    (s.endStartQuietly journal).waitMaint = s.waitMaint ∧ (s.endStartQuietly journal).lastServed = s.lastServed ∧
    (s.endStartQuietly journal).retryCounter = s.retryCounter ∧
    (s.endStartQuietly journal).response = s.response ∧ (s.endStartQuietly journal).linkOut = s.linkOut ∧
    (s.endStartQuietly journal).completion = s.completion ∧ (s.endStartQuietly journal).alertMask = s.alertMask ∧
    (s.endStartQuietly journal).freeCount = s.freeCount := by
  unfold State.endStartQuietly
  all_goals try dsimp only
  all_goals repeat' split
  all_goals simp

@[simp] theorem State.startScan_frame (s : State) (epoch : Word) :
    (s.startScan epoch).recoveryMark = s.recoveryMark ∧
    (s.startScan epoch).pending = s.pending ∧ (s.startScan epoch).inReset = s.inReset ∧
    (s.startScan epoch).operating = s.operating ∧ (s.startScan epoch).pfw = s.pfw ∧
    (s.startScan epoch).ckptHigh = s.ckptHigh ∧ (s.startScan epoch).mem = s.mem ∧
    (s.startScan epoch).journal = s.journal ∧ (s.startScan epoch).anchorA = s.anchorA ∧
    (s.startScan epoch).anchorB = s.anchorB ∧ (s.startScan epoch).slots = s.slots ∧
    (s.startScan epoch).slotHeaders = s.slotHeaders ∧ (s.startScan epoch).index = s.index ∧
    (s.startScan epoch).stack = s.stack ∧ (s.startScan epoch).nextSequence = s.nextSequence ∧
    (s.startScan epoch).exhausted = s.exhausted ∧ (s.startScan epoch).headerMark = s.headerMark ∧
    (s.startScan epoch).longOp = s.longOp ∧ (s.startScan epoch).active = s.active ∧
    (s.startScan epoch).staging = s.staging ∧ (s.startScan epoch).copyA = s.copyA ∧
    (s.startScan epoch).copyB = s.copyB ∧ (s.startScan epoch).designation = s.designation ∧
    (s.startScan epoch).configDegraded = s.configDegraded ∧ (s.startScan epoch).activationDue = s.activationDue ∧
    (s.startScan epoch).freeze = s.freeze ∧ (s.startScan epoch).deferredFreeze = s.deferredFreeze ∧
    (s.startScan epoch).held = s.held ∧ (s.startScan epoch).pendingRead = s.pendingRead ∧
    (s.startScan epoch).queue = s.queue ∧ (s.startScan epoch).nextAcceptance = s.nextAcceptance ∧
    (s.startScan epoch).mark = s.mark ∧ (s.startScan epoch).frontResponse = s.frontResponse ∧
    (s.startScan epoch).job = s.job ∧ (s.startScan epoch).parked = s.parked ∧
    (s.startScan epoch).readHeld = s.readHeld ∧ (s.startScan epoch).headHeld = s.headHeld ∧
    (s.startScan epoch).retryCounter = s.retryCounter ∧ (s.startScan epoch).response = s.response ∧
    (s.startScan epoch).linkOut = s.linkOut ∧ (s.startScan epoch).completion = s.completion ∧
    (s.startScan epoch).ckptLatch = s.ckptLatch ∧ (s.startScan epoch).log = s.log ∧
    (s.startScan epoch).dropped = s.dropped ∧ (s.startScan epoch).alertMask = s.alertMask ∧
    (s.startScan epoch).freeCount = s.freeCount := by
  unfold State.startScan
  all_goals try dsimp only
  all_goals repeat' split
  all_goals simp

@[simp] theorem State.anchorDegraded_frame (s : State) (c : Copy) (epoch : Word) :
    (s.anchorDegraded c epoch).recoveryMark = s.recoveryMark ∧
    (s.anchorDegraded c epoch).pending = s.pending ∧ (s.anchorDegraded c epoch).inReset = s.inReset ∧
    (s.anchorDegraded c epoch).operating = s.operating ∧ (s.anchorDegraded c epoch).pfw = s.pfw ∧
    (s.anchorDegraded c epoch).ckptHigh = s.ckptHigh ∧ (s.anchorDegraded c epoch).mem = s.mem ∧
    (s.anchorDegraded c epoch).journal = s.journal ∧ (s.anchorDegraded c epoch).epoch = s.epoch ∧
    (s.anchorDegraded c epoch).anchorA = s.anchorA ∧ (s.anchorDegraded c epoch).anchorB = s.anchorB ∧
    (s.anchorDegraded c epoch).slots = s.slots ∧ (s.anchorDegraded c epoch).slotHeaders = s.slotHeaders ∧
    (s.anchorDegraded c epoch).index = s.index ∧ (s.anchorDegraded c epoch).stack = s.stack ∧
    (s.anchorDegraded c epoch).nextSequence = s.nextSequence ∧
    (s.anchorDegraded c epoch).exhausted = s.exhausted ∧ (s.anchorDegraded c epoch).headerMark = s.headerMark ∧
    (s.anchorDegraded c epoch).longOp = s.longOp ∧ (s.anchorDegraded c epoch).maint = s.maint ∧
    (s.anchorDegraded c epoch).active = s.active ∧ (s.anchorDegraded c epoch).staging = s.staging ∧
    (s.anchorDegraded c epoch).copyA = s.copyA ∧ (s.anchorDegraded c epoch).copyB = s.copyB ∧
    (s.anchorDegraded c epoch).designation = s.designation ∧
    (s.anchorDegraded c epoch).configDegraded = s.configDegraded ∧
    (s.anchorDegraded c epoch).activationDue = s.activationDue ∧ (s.anchorDegraded c epoch).freeze = s.freeze ∧
    (s.anchorDegraded c epoch).deferredFreeze = s.deferredFreeze ∧ (s.anchorDegraded c epoch).held = s.held ∧
    (s.anchorDegraded c epoch).pendingRead = s.pendingRead ∧ (s.anchorDegraded c epoch).queue = s.queue ∧
    (s.anchorDegraded c epoch).nextAcceptance = s.nextAcceptance ∧ (s.anchorDegraded c epoch).mark = s.mark ∧
    (s.anchorDegraded c epoch).frontResponse = s.frontResponse ∧ (s.anchorDegraded c epoch).job = s.job ∧
    (s.anchorDegraded c epoch).parked = s.parked ∧ (s.anchorDegraded c epoch).readHeld = s.readHeld ∧
    (s.anchorDegraded c epoch).headHeld = s.headHeld ∧ (s.anchorDegraded c epoch).port = s.port ∧
    (s.anchorDegraded c epoch).waitFront = s.waitFront ∧ (s.anchorDegraded c epoch).waitMaint = s.waitMaint ∧
    (s.anchorDegraded c epoch).lastServed = s.lastServed ∧
    (s.anchorDegraded c epoch).retryCounter = s.retryCounter ∧ (s.anchorDegraded c epoch).response = s.response ∧
    (s.anchorDegraded c epoch).linkOut = s.linkOut ∧ (s.anchorDegraded c epoch).completion = s.completion ∧
    (s.anchorDegraded c epoch).ckptLatch = s.ckptLatch ∧ (s.anchorDegraded c epoch).alertMask = s.alertMask ∧
    (s.anchorDegraded c epoch).freeCount = s.freeCount := by
  unfold State.anchorDegraded
  all_goals try dsimp only
  all_goals repeat' split
  all_goals simp

@[simp] theorem State.selectAnchor_frame (s : State) :
    (s.selectAnchor).recoveryMark = s.recoveryMark ∧
    (s.selectAnchor).pending = s.pending ∧ (s.selectAnchor).inReset = s.inReset ∧ (s.selectAnchor).pfw = s.pfw ∧
    (s.selectAnchor).ckptHigh = s.ckptHigh ∧ (s.selectAnchor).mem = s.mem ∧ (s.selectAnchor).anchorA = s.anchorA ∧
    (s.selectAnchor).anchorB = s.anchorB ∧ (s.selectAnchor).slots = s.slots ∧
    (s.selectAnchor).slotHeaders = s.slotHeaders ∧ (s.selectAnchor).index = s.index ∧
    (s.selectAnchor).stack = s.stack ∧ (s.selectAnchor).nextSequence = s.nextSequence ∧
    (s.selectAnchor).exhausted = s.exhausted ∧ (s.selectAnchor).headerMark = s.headerMark ∧
    (s.selectAnchor).active = s.active ∧ (s.selectAnchor).staging = s.staging ∧ (s.selectAnchor).copyA = s.copyA ∧
    (s.selectAnchor).copyB = s.copyB ∧ (s.selectAnchor).designation = s.designation ∧
    (s.selectAnchor).configDegraded = s.configDegraded ∧ (s.selectAnchor).activationDue = s.activationDue ∧
    (s.selectAnchor).freeze = s.freeze ∧ (s.selectAnchor).deferredFreeze = s.deferredFreeze ∧
    (s.selectAnchor).held = s.held ∧ (s.selectAnchor).pendingRead = s.pendingRead ∧
    (s.selectAnchor).nextAcceptance = s.nextAcceptance ∧ (s.selectAnchor).job = s.job ∧
    (s.selectAnchor).retryCounter = s.retryCounter ∧ (s.selectAnchor).response = s.response ∧
    (s.selectAnchor).linkOut = s.linkOut ∧ (s.selectAnchor).completion = s.completion ∧
    (s.selectAnchor).alertMask = s.alertMask ∧ (s.selectAnchor).freeCount = s.freeCount := by
  unfold State.selectAnchor
  all_goals try dsimp only
  all_goals repeat' split
  all_goals simp

@[simp] theorem State.anchorClassified_frame (s : State) (c : Copy) (r : AnchorRecord) :
    (s.anchorClassified c r).recoveryMark = s.recoveryMark ∧
    (s.anchorClassified c r).pending = s.pending ∧ (s.anchorClassified c r).inReset = s.inReset ∧
    (s.anchorClassified c r).pfw = s.pfw ∧ (s.anchorClassified c r).ckptHigh = s.ckptHigh ∧
    (s.anchorClassified c r).mem = s.mem ∧ (s.anchorClassified c r).slots = s.slots ∧
    (s.anchorClassified c r).slotHeaders = s.slotHeaders ∧ (s.anchorClassified c r).index = s.index ∧
    (s.anchorClassified c r).stack = s.stack ∧ (s.anchorClassified c r).nextSequence = s.nextSequence ∧
    (s.anchorClassified c r).exhausted = s.exhausted ∧ (s.anchorClassified c r).headerMark = s.headerMark ∧
    (s.anchorClassified c r).active = s.active ∧ (s.anchorClassified c r).staging = s.staging ∧
    (s.anchorClassified c r).copyA = s.copyA ∧ (s.anchorClassified c r).copyB = s.copyB ∧
    (s.anchorClassified c r).designation = s.designation ∧
    (s.anchorClassified c r).configDegraded = s.configDegraded ∧
    (s.anchorClassified c r).activationDue = s.activationDue ∧ (s.anchorClassified c r).freeze = s.freeze ∧
    (s.anchorClassified c r).deferredFreeze = s.deferredFreeze ∧ (s.anchorClassified c r).held = s.held ∧
    (s.anchorClassified c r).pendingRead = s.pendingRead ∧
    (s.anchorClassified c r).nextAcceptance = s.nextAcceptance ∧ (s.anchorClassified c r).job = s.job ∧
    (s.anchorClassified c r).retryCounter = s.retryCounter ∧ (s.anchorClassified c r).response = s.response ∧
    (s.anchorClassified c r).linkOut = s.linkOut ∧ (s.anchorClassified c r).completion = s.completion ∧
    (s.anchorClassified c r).alertMask = s.alertMask ∧ (s.anchorClassified c r).freeCount = s.freeCount := by
  unfold State.anchorClassified
  all_goals try dsimp only
  all_goals repeat' split
  all_goals simp

@[simp] theorem State.buildJournal_frame (s : State) (headers : List SlotHeader) (accepted : List SlotEntry) :
    (s.buildJournal headers accepted).recoveryMark = s.recoveryMark ∧
    (s.buildJournal headers accepted).pending = s.pending ∧
    (s.buildJournal headers accepted).inReset = s.inReset ∧
    (s.buildJournal headers accepted).operating = s.operating ∧ (s.buildJournal headers accepted).pfw = s.pfw ∧
    (s.buildJournal headers accepted).ckptHigh = s.ckptHigh ∧ (s.buildJournal headers accepted).mem = s.mem ∧
    (s.buildJournal headers accepted).journal = s.journal ∧ (s.buildJournal headers accepted).epoch = s.epoch ∧
    (s.buildJournal headers accepted).anchorA = s.anchorA ∧
    (s.buildJournal headers accepted).anchorB = s.anchorB ∧
    (s.buildJournal headers accepted).nextSequence = s.nextSequence ∧
    (s.buildJournal headers accepted).exhausted = s.exhausted ∧
    (s.buildJournal headers accepted).headerMark = s.headerMark ∧
    (s.buildJournal headers accepted).longOp = s.longOp ∧ (s.buildJournal headers accepted).maint = s.maint ∧
    (s.buildJournal headers accepted).active = s.active ∧ (s.buildJournal headers accepted).staging = s.staging ∧
    (s.buildJournal headers accepted).copyA = s.copyA ∧ (s.buildJournal headers accepted).copyB = s.copyB ∧
    (s.buildJournal headers accepted).designation = s.designation ∧
    (s.buildJournal headers accepted).configDegraded = s.configDegraded ∧
    (s.buildJournal headers accepted).activationDue = s.activationDue ∧
    (s.buildJournal headers accepted).freeze = s.freeze ∧
    (s.buildJournal headers accepted).deferredFreeze = s.deferredFreeze ∧
    (s.buildJournal headers accepted).held = s.held ∧
    (s.buildJournal headers accepted).pendingRead = s.pendingRead ∧
    (s.buildJournal headers accepted).queue = s.queue ∧
    (s.buildJournal headers accepted).nextAcceptance = s.nextAcceptance ∧
    (s.buildJournal headers accepted).mark = s.mark ∧
    (s.buildJournal headers accepted).frontResponse = s.frontResponse ∧
    (s.buildJournal headers accepted).job = s.job ∧ (s.buildJournal headers accepted).parked = s.parked ∧
    (s.buildJournal headers accepted).readHeld = s.readHeld ∧
    (s.buildJournal headers accepted).headHeld = s.headHeld ∧ (s.buildJournal headers accepted).port = s.port ∧
    (s.buildJournal headers accepted).waitFront = s.waitFront ∧
    (s.buildJournal headers accepted).waitMaint = s.waitMaint ∧
    (s.buildJournal headers accepted).lastServed = s.lastServed ∧
    (s.buildJournal headers accepted).retryCounter = s.retryCounter ∧
    (s.buildJournal headers accepted).response = s.response ∧
    (s.buildJournal headers accepted).linkOut = s.linkOut ∧
    (s.buildJournal headers accepted).completion = s.completion ∧
    (s.buildJournal headers accepted).ckptLatch = s.ckptLatch ∧ (s.buildJournal headers accepted).log = s.log ∧
    (s.buildJournal headers accepted).dropped = s.dropped ∧
    (s.buildJournal headers accepted).alertMask = s.alertMask ∧
    (s.buildJournal headers accepted).freeCount = s.freeCount := by
  unfold State.buildJournal
  all_goals try dsimp only
  all_goals repeat' split
  all_goals simp

@[simp] theorem State.setRecoveryMark_sets (s : State) : s.setRecoveryMark.recoveryMark = some s.nSlots.toNat := rfl

@[simp] theorem State.setRecoveryMark_frame (s : State) :
    (s.setRecoveryMark).pending = s.pending ∧ (s.setRecoveryMark).inReset = s.inReset ∧
    (s.setRecoveryMark).operating = s.operating ∧ (s.setRecoveryMark).pfw = s.pfw ∧
    (s.setRecoveryMark).ckptHigh = s.ckptHigh ∧ (s.setRecoveryMark).mem = s.mem ∧
    (s.setRecoveryMark).journal = s.journal ∧ (s.setRecoveryMark).epoch = s.epoch ∧
    (s.setRecoveryMark).anchorA = s.anchorA ∧ (s.setRecoveryMark).anchorB = s.anchorB ∧
    (s.setRecoveryMark).slots = s.slots ∧ (s.setRecoveryMark).slotHeaders = s.slotHeaders ∧
    (s.setRecoveryMark).index = s.index ∧ (s.setRecoveryMark).stack = s.stack ∧
    (s.setRecoveryMark).nextSequence = s.nextSequence ∧ (s.setRecoveryMark).exhausted = s.exhausted ∧
    (s.setRecoveryMark).headerMark = s.headerMark ∧ (s.setRecoveryMark).longOp = s.longOp ∧
    (s.setRecoveryMark).maint = s.maint ∧ (s.setRecoveryMark).active = s.active ∧
    (s.setRecoveryMark).staging = s.staging ∧ (s.setRecoveryMark).copyA = s.copyA ∧
    (s.setRecoveryMark).copyB = s.copyB ∧ (s.setRecoveryMark).designation = s.designation ∧
    (s.setRecoveryMark).configDegraded = s.configDegraded ∧
    (s.setRecoveryMark).activationDue = s.activationDue ∧ (s.setRecoveryMark).freeze = s.freeze ∧
    (s.setRecoveryMark).deferredFreeze = s.deferredFreeze ∧ (s.setRecoveryMark).held = s.held ∧
    (s.setRecoveryMark).pendingRead = s.pendingRead ∧ (s.setRecoveryMark).queue = s.queue ∧
    (s.setRecoveryMark).nextAcceptance = s.nextAcceptance ∧ (s.setRecoveryMark).mark = s.mark ∧
    (s.setRecoveryMark).frontResponse = s.frontResponse ∧ (s.setRecoveryMark).job = s.job ∧
    (s.setRecoveryMark).parked = s.parked ∧ (s.setRecoveryMark).readHeld = s.readHeld ∧
    (s.setRecoveryMark).headHeld = s.headHeld ∧ (s.setRecoveryMark).port = s.port ∧
    (s.setRecoveryMark).waitFront = s.waitFront ∧ (s.setRecoveryMark).waitMaint = s.waitMaint ∧
    (s.setRecoveryMark).lastServed = s.lastServed ∧ (s.setRecoveryMark).retryCounter = s.retryCounter ∧
    (s.setRecoveryMark).response = s.response ∧ (s.setRecoveryMark).linkOut = s.linkOut ∧
    (s.setRecoveryMark).completion = s.completion ∧ (s.setRecoveryMark).ckptLatch = s.ckptLatch ∧
    (s.setRecoveryMark).log = s.log ∧ (s.setRecoveryMark).dropped = s.dropped ∧
    (s.setRecoveryMark).alertMask = s.alertMask ∧ (s.setRecoveryMark).freeCount = s.freeCount := by
  unfold State.setRecoveryMark
  all_goals try dsimp only
  all_goals repeat' split
  all_goals simp

@[simp] theorem State.scanStopped_frame (s : State) (headers : List SlotHeader) (accepted : List SlotEntry) :
    (s.scanStopped headers accepted).pending = s.pending ∧ (s.scanStopped headers accepted).inReset = s.inReset ∧
    (s.scanStopped headers accepted).pfw = s.pfw ∧ (s.scanStopped headers accepted).ckptHigh = s.ckptHigh ∧
    (s.scanStopped headers accepted).mem = s.mem ∧ (s.scanStopped headers accepted).epoch = s.epoch ∧
    (s.scanStopped headers accepted).active = s.active ∧ (s.scanStopped headers accepted).staging = s.staging ∧
    (s.scanStopped headers accepted).copyA = s.copyA ∧ (s.scanStopped headers accepted).copyB = s.copyB ∧
    (s.scanStopped headers accepted).designation = s.designation ∧
    (s.scanStopped headers accepted).configDegraded = s.configDegraded ∧
    (s.scanStopped headers accepted).activationDue = s.activationDue ∧
    (s.scanStopped headers accepted).freeze = s.freeze ∧
    (s.scanStopped headers accepted).deferredFreeze = s.deferredFreeze ∧
    (s.scanStopped headers accepted).held = s.held ∧
    (s.scanStopped headers accepted).pendingRead = s.pendingRead ∧
    (s.scanStopped headers accepted).nextAcceptance = s.nextAcceptance ∧
    (s.scanStopped headers accepted).job = s.job ∧
    (s.scanStopped headers accepted).retryCounter = s.retryCounter ∧
    (s.scanStopped headers accepted).response = s.response ∧
    (s.scanStopped headers accepted).linkOut = s.linkOut ∧
    (s.scanStopped headers accepted).alertMask = s.alertMask ∧
    (s.scanStopped headers accepted).freeCount = s.freeCount := by
  unfold State.scanStopped
  all_goals try dsimp only
  all_goals repeat' split
  all_goals simp

@[simp] theorem State.headerScanned_frame (s : State) (k : Nat) (headers : List SlotHeader) (accepted : List SlotEntry) (r : Row) :
    (s.headerScanned k headers accepted r).pending = s.pending ∧
    (s.headerScanned k headers accepted r).inReset = s.inReset ∧
    (s.headerScanned k headers accepted r).pfw = s.pfw ∧
    (s.headerScanned k headers accepted r).ckptHigh = s.ckptHigh ∧
    (s.headerScanned k headers accepted r).mem = s.mem ∧ (s.headerScanned k headers accepted r).epoch = s.epoch ∧
    (s.headerScanned k headers accepted r).active = s.active ∧
    (s.headerScanned k headers accepted r).staging = s.staging ∧
    (s.headerScanned k headers accepted r).copyA = s.copyA ∧
    (s.headerScanned k headers accepted r).copyB = s.copyB ∧
    (s.headerScanned k headers accepted r).designation = s.designation ∧
    (s.headerScanned k headers accepted r).configDegraded = s.configDegraded ∧
    (s.headerScanned k headers accepted r).activationDue = s.activationDue ∧
    (s.headerScanned k headers accepted r).freeze = s.freeze ∧
    (s.headerScanned k headers accepted r).deferredFreeze = s.deferredFreeze ∧
    (s.headerScanned k headers accepted r).held = s.held ∧
    (s.headerScanned k headers accepted r).pendingRead = s.pendingRead ∧
    (s.headerScanned k headers accepted r).nextAcceptance = s.nextAcceptance ∧
    (s.headerScanned k headers accepted r).job = s.job ∧
    (s.headerScanned k headers accepted r).retryCounter = s.retryCounter ∧
    (s.headerScanned k headers accepted r).response = s.response ∧
    (s.headerScanned k headers accepted r).linkOut = s.linkOut ∧
    (s.headerScanned k headers accepted r).alertMask = s.alertMask ∧
    (s.headerScanned k headers accepted r).freeCount = s.freeCount := by
  unfold State.headerScanned
  all_goals try dsimp only
  all_goals repeat' split
  all_goals simp

@[simp] theorem State.scanFailed_frame (s : State) (k : Nat) (headers : List SlotHeader) (accepted : List SlotEntry) (kind : FaultKind) :
    (s.scanFailed k headers accepted kind).pending = s.pending ∧
    (s.scanFailed k headers accepted kind).inReset = s.inReset ∧
    (s.scanFailed k headers accepted kind).pfw = s.pfw ∧
    (s.scanFailed k headers accepted kind).ckptHigh = s.ckptHigh ∧
    (s.scanFailed k headers accepted kind).mem = s.mem ∧ (s.scanFailed k headers accepted kind).epoch = s.epoch ∧
    (s.scanFailed k headers accepted kind).anchorA = s.anchorA ∧
    (s.scanFailed k headers accepted kind).anchorB = s.anchorB ∧
    (s.scanFailed k headers accepted kind).nextSequence = s.nextSequence ∧
    (s.scanFailed k headers accepted kind).exhausted = s.exhausted ∧
    (s.scanFailed k headers accepted kind).active = s.active ∧
    (s.scanFailed k headers accepted kind).staging = s.staging ∧
    (s.scanFailed k headers accepted kind).copyA = s.copyA ∧
    (s.scanFailed k headers accepted kind).copyB = s.copyB ∧
    (s.scanFailed k headers accepted kind).designation = s.designation ∧
    (s.scanFailed k headers accepted kind).configDegraded = s.configDegraded ∧
    (s.scanFailed k headers accepted kind).activationDue = s.activationDue ∧
    (s.scanFailed k headers accepted kind).freeze = s.freeze ∧
    (s.scanFailed k headers accepted kind).deferredFreeze = s.deferredFreeze ∧
    (s.scanFailed k headers accepted kind).held = s.held ∧
    (s.scanFailed k headers accepted kind).pendingRead = s.pendingRead ∧
    (s.scanFailed k headers accepted kind).nextAcceptance = s.nextAcceptance ∧
    (s.scanFailed k headers accepted kind).job = s.job ∧ (s.scanFailed k headers accepted kind).port = s.port ∧
    (s.scanFailed k headers accepted kind).waitFront = s.waitFront ∧
    (s.scanFailed k headers accepted kind).waitMaint = s.waitMaint ∧
    (s.scanFailed k headers accepted kind).lastServed = s.lastServed ∧
    (s.scanFailed k headers accepted kind).retryCounter = s.retryCounter ∧
    (s.scanFailed k headers accepted kind).response = s.response ∧
    (s.scanFailed k headers accepted kind).linkOut = s.linkOut ∧
    (s.scanFailed k headers accepted kind).alertMask = s.alertMask ∧
    (s.scanFailed k headers accepted kind).freeCount = s.freeCount := by
  unfold State.scanFailed
  all_goals try dsimp only
  all_goals repeat' split
  all_goals simp

@[simp] theorem State.executeSave_frame (s : State) :
    (s.executeSave).pending = s.pending ∧ (s.executeSave).inReset = s.inReset ∧ (s.executeSave).pfw = s.pfw ∧
    (s.executeSave).ckptHigh = s.ckptHigh ∧ (s.executeSave).mem = s.mem ∧ (s.executeSave).epoch = s.epoch ∧
    (s.executeSave).anchorA = s.anchorA ∧ (s.executeSave).anchorB = s.anchorB ∧ (s.executeSave).slots = s.slots ∧
    (s.executeSave).slotHeaders = s.slotHeaders ∧ (s.executeSave).index = s.index ∧
    (s.executeSave).nextSequence = s.nextSequence ∧ (s.executeSave).exhausted = s.exhausted ∧
    (s.executeSave).headerMark = s.headerMark ∧ (s.executeSave).active = s.active ∧
    (s.executeSave).staging = s.staging ∧ (s.executeSave).copyA = s.copyA ∧ (s.executeSave).copyB = s.copyB ∧
    (s.executeSave).designation = s.designation ∧ (s.executeSave).configDegraded = s.configDegraded ∧
    (s.executeSave).activationDue = s.activationDue ∧ (s.executeSave).freeze = s.freeze ∧
    (s.executeSave).deferredFreeze = s.deferredFreeze ∧ (s.executeSave).held = s.held ∧
    (s.executeSave).pendingRead = s.pendingRead ∧ (s.executeSave).nextAcceptance = s.nextAcceptance ∧
    (s.executeSave).job = s.job ∧ (s.executeSave).port = s.port ∧ (s.executeSave).waitFront = s.waitFront ∧
    (s.executeSave).waitMaint = s.waitMaint ∧ (s.executeSave).lastServed = s.lastServed ∧
    (s.executeSave).retryCounter = s.retryCounter ∧ (s.executeSave).response = s.response ∧
    (s.executeSave).linkOut = s.linkOut ∧ (s.executeSave).alertMask = s.alertMask ∧
    (s.executeSave).freeCount = s.freeCount := by
  unfold State.executeSave
  all_goals try dsimp only
  all_goals repeat' split
  all_goals simp

@[simp] theorem State.executeRelease_frame (s : State) :
    (s.executeRelease).pending = s.pending ∧ (s.executeRelease).inReset = s.inReset ∧
    (s.executeRelease).pfw = s.pfw ∧ (s.executeRelease).ckptHigh = s.ckptHigh ∧ (s.executeRelease).mem = s.mem ∧
    (s.executeRelease).epoch = s.epoch ∧ (s.executeRelease).anchorA = s.anchorA ∧
    (s.executeRelease).anchorB = s.anchorB ∧ (s.executeRelease).slots = s.slots ∧
    (s.executeRelease).slotHeaders = s.slotHeaders ∧ (s.executeRelease).index = s.index ∧
    (s.executeRelease).nextSequence = s.nextSequence ∧ (s.executeRelease).exhausted = s.exhausted ∧
    (s.executeRelease).headerMark = s.headerMark ∧ (s.executeRelease).active = s.active ∧
    (s.executeRelease).staging = s.staging ∧ (s.executeRelease).copyA = s.copyA ∧
    (s.executeRelease).copyB = s.copyB ∧ (s.executeRelease).designation = s.designation ∧
    (s.executeRelease).configDegraded = s.configDegraded ∧ (s.executeRelease).activationDue = s.activationDue ∧
    (s.executeRelease).freeze = s.freeze ∧ (s.executeRelease).deferredFreeze = s.deferredFreeze ∧
    (s.executeRelease).held = s.held ∧ (s.executeRelease).pendingRead = s.pendingRead ∧
    (s.executeRelease).nextAcceptance = s.nextAcceptance ∧ (s.executeRelease).job = s.job ∧
    (s.executeRelease).port = s.port ∧ (s.executeRelease).waitFront = s.waitFront ∧
    (s.executeRelease).waitMaint = s.waitMaint ∧ (s.executeRelease).lastServed = s.lastServed ∧
    (s.executeRelease).retryCounter = s.retryCounter ∧ (s.executeRelease).response = s.response ∧
    (s.executeRelease).linkOut = s.linkOut ∧ (s.executeRelease).alertMask = s.alertMask ∧
    (s.executeRelease).freeCount = s.freeCount := by
  unfold State.executeRelease
  all_goals try dsimp only
  all_goals repeat' split
  all_goals simp

@[simp] theorem State.executeUndo_frame (s : State) :
    (s.executeUndo).pending = s.pending ∧ (s.executeUndo).inReset = s.inReset ∧ (s.executeUndo).pfw = s.pfw ∧
    (s.executeUndo).ckptHigh = s.ckptHigh ∧ (s.executeUndo).mem = s.mem ∧ (s.executeUndo).epoch = s.epoch ∧
    (s.executeUndo).slots = s.slots ∧ (s.executeUndo).slotHeaders = s.slotHeaders ∧
    (s.executeUndo).index = s.index ∧ (s.executeUndo).stack = s.stack ∧
    (s.executeUndo).nextSequence = s.nextSequence ∧ (s.executeUndo).exhausted = s.exhausted ∧
    (s.executeUndo).headerMark = s.headerMark ∧ (s.executeUndo).active = s.active ∧
    (s.executeUndo).staging = s.staging ∧ (s.executeUndo).copyA = s.copyA ∧ (s.executeUndo).copyB = s.copyB ∧
    (s.executeUndo).designation = s.designation ∧ (s.executeUndo).configDegraded = s.configDegraded ∧
    (s.executeUndo).activationDue = s.activationDue ∧ (s.executeUndo).freeze = s.freeze ∧
    (s.executeUndo).deferredFreeze = s.deferredFreeze ∧ (s.executeUndo).held = s.held ∧
    (s.executeUndo).pendingRead = s.pendingRead ∧ (s.executeUndo).nextAcceptance = s.nextAcceptance ∧
    (s.executeUndo).job = s.job ∧ (s.executeUndo).retryCounter = s.retryCounter ∧
    (s.executeUndo).response = s.response ∧ (s.executeUndo).linkOut = s.linkOut ∧
    (s.executeUndo).alertMask = s.alertMask ∧ (s.executeUndo).freeCount = s.freeCount := by
  unfold State.executeUndo
  all_goals try dsimp only
  all_goals repeat' split
  all_goals simp

@[simp] theorem State.executeRollback_frame (s : State) :
    (s.executeRollback).pending = s.pending ∧ (s.executeRollback).inReset = s.inReset ∧
    (s.executeRollback).pfw = s.pfw ∧ (s.executeRollback).ckptHigh = s.ckptHigh ∧
    (s.executeRollback).mem = s.mem ∧ (s.executeRollback).epoch = s.epoch ∧ (s.executeRollback).slots = s.slots ∧
    (s.executeRollback).slotHeaders = s.slotHeaders ∧ (s.executeRollback).index = s.index ∧
    (s.executeRollback).nextSequence = s.nextSequence ∧ (s.executeRollback).exhausted = s.exhausted ∧
    (s.executeRollback).headerMark = s.headerMark ∧ (s.executeRollback).active = s.active ∧
    (s.executeRollback).staging = s.staging ∧ (s.executeRollback).copyA = s.copyA ∧
    (s.executeRollback).copyB = s.copyB ∧ (s.executeRollback).designation = s.designation ∧
    (s.executeRollback).configDegraded = s.configDegraded ∧ (s.executeRollback).activationDue = s.activationDue ∧
    (s.executeRollback).freeze = s.freeze ∧ (s.executeRollback).deferredFreeze = s.deferredFreeze ∧
    (s.executeRollback).held = s.held ∧ (s.executeRollback).pendingRead = s.pendingRead ∧
    (s.executeRollback).nextAcceptance = s.nextAcceptance ∧ (s.executeRollback).job = s.job ∧
    (s.executeRollback).retryCounter = s.retryCounter ∧ (s.executeRollback).response = s.response ∧
    (s.executeRollback).linkOut = s.linkOut ∧ (s.executeRollback).alertMask = s.alertMask ∧
    (s.executeRollback).freeCount = s.freeCount := by
  unfold State.executeRollback
  all_goals try dsimp only
  all_goals repeat' split
  all_goals simp

@[simp] theorem State.executeCommit_frame (s : State) :
    (s.executeCommit).pending = s.pending ∧ (s.executeCommit).inReset = s.inReset ∧
    (s.executeCommit).pfw = s.pfw ∧ (s.executeCommit).ckptHigh = s.ckptHigh ∧ (s.executeCommit).mem = s.mem ∧
    (s.executeCommit).epoch = s.epoch ∧ (s.executeCommit).slots = s.slots ∧
    (s.executeCommit).slotHeaders = s.slotHeaders ∧ (s.executeCommit).index = s.index ∧
    (s.executeCommit).nextSequence = s.nextSequence ∧ (s.executeCommit).exhausted = s.exhausted ∧
    (s.executeCommit).headerMark = s.headerMark ∧ (s.executeCommit).active = s.active ∧
    (s.executeCommit).staging = s.staging ∧ (s.executeCommit).copyA = s.copyA ∧
    (s.executeCommit).copyB = s.copyB ∧ (s.executeCommit).designation = s.designation ∧
    (s.executeCommit).configDegraded = s.configDegraded ∧ (s.executeCommit).activationDue = s.activationDue ∧
    (s.executeCommit).freeze = s.freeze ∧ (s.executeCommit).deferredFreeze = s.deferredFreeze ∧
    (s.executeCommit).held = s.held ∧ (s.executeCommit).pendingRead = s.pendingRead ∧
    (s.executeCommit).nextAcceptance = s.nextAcceptance ∧ (s.executeCommit).job = s.job ∧
    (s.executeCommit).retryCounter = s.retryCounter ∧ (s.executeCommit).response = s.response ∧
    (s.executeCommit).linkOut = s.linkOut ∧ (s.executeCommit).alertMask = s.alertMask ∧
    (s.executeCommit).freeCount = s.freeCount := by
  unfold State.executeCommit
  all_goals try dsimp only
  all_goals repeat' split
  all_goals simp

@[simp] theorem State.executeResume_frame (s : State) :
    (s.executeResume).pending = s.pending ∧ (s.executeResume).inReset = s.inReset ∧
    (s.executeResume).pfw = s.pfw ∧ (s.executeResume).ckptHigh = s.ckptHigh ∧ (s.executeResume).mem = s.mem ∧
    (s.executeResume).epoch = s.epoch ∧ (s.executeResume).slots = s.slots ∧
    (s.executeResume).slotHeaders = s.slotHeaders ∧ (s.executeResume).index = s.index ∧
    (s.executeResume).nextSequence = s.nextSequence ∧ (s.executeResume).exhausted = s.exhausted ∧
    (s.executeResume).headerMark = s.headerMark ∧ (s.executeResume).active = s.active ∧
    (s.executeResume).staging = s.staging ∧ (s.executeResume).copyA = s.copyA ∧
    (s.executeResume).copyB = s.copyB ∧ (s.executeResume).designation = s.designation ∧
    (s.executeResume).configDegraded = s.configDegraded ∧ (s.executeResume).activationDue = s.activationDue ∧
    (s.executeResume).freeze = s.freeze ∧ (s.executeResume).deferredFreeze = s.deferredFreeze ∧
    (s.executeResume).held = s.held ∧ (s.executeResume).pendingRead = s.pendingRead ∧
    (s.executeResume).nextAcceptance = s.nextAcceptance ∧ (s.executeResume).job = s.job ∧
    (s.executeResume).retryCounter = s.retryCounter ∧ (s.executeResume).response = s.response ∧
    (s.executeResume).linkOut = s.linkOut ∧ (s.executeResume).alertMask = s.alertMask ∧
    (s.executeResume).freeCount = s.freeCount := by
  unfold State.executeResume
  all_goals try dsimp only
  all_goals repeat' split
  all_goals simp

@[simp] theorem State.executeFormat_frame (s : State) :
    (s.executeFormat).pending = s.pending ∧ (s.executeFormat).inReset = s.inReset ∧
    (s.executeFormat).pfw = s.pfw ∧ (s.executeFormat).ckptHigh = s.ckptHigh ∧ (s.executeFormat).mem = s.mem ∧
    (s.executeFormat).epoch = s.epoch ∧ (s.executeFormat).anchorA = s.anchorA ∧
    (s.executeFormat).anchorB = s.anchorB ∧ (s.executeFormat).nextSequence = s.nextSequence ∧
    (s.executeFormat).exhausted = s.exhausted ∧ (s.executeFormat).headerMark = s.headerMark ∧
    (s.executeFormat).active = s.active ∧ (s.executeFormat).staging = s.staging ∧
    (s.executeFormat).copyA = s.copyA ∧ (s.executeFormat).copyB = s.copyB ∧
    (s.executeFormat).designation = s.designation ∧ (s.executeFormat).configDegraded = s.configDegraded ∧
    (s.executeFormat).activationDue = s.activationDue ∧ (s.executeFormat).freeze = s.freeze ∧
    (s.executeFormat).deferredFreeze = s.deferredFreeze ∧ (s.executeFormat).held = s.held ∧
    (s.executeFormat).pendingRead = s.pendingRead ∧ (s.executeFormat).nextAcceptance = s.nextAcceptance ∧
    (s.executeFormat).job = s.job ∧ (s.executeFormat).retryCounter = s.retryCounter ∧
    (s.executeFormat).response = s.response ∧ (s.executeFormat).linkOut = s.linkOut ∧
    (s.executeFormat).alertMask = s.alertMask ∧ (s.executeFormat).freeCount = s.freeCount := by
  unfold State.executeFormat
  all_goals try dsimp only
  all_goals repeat' split
  all_goals simp

@[simp] theorem State.loadRow_frame (s : State) (c : Copy) (i : Nat) (rows : List RowData) (first : Option ConfigRecord) :
    (s.loadRow c i rows first).recoveryMark = s.recoveryMark ∧
    (s.loadRow c i rows first).pending = s.pending ∧ (s.loadRow c i rows first).inReset = s.inReset ∧
    (s.loadRow c i rows first).operating = s.operating ∧ (s.loadRow c i rows first).pfw = s.pfw ∧
    (s.loadRow c i rows first).ckptHigh = s.ckptHigh ∧ (s.loadRow c i rows first).mem = s.mem ∧
    (s.loadRow c i rows first).journal = s.journal ∧ (s.loadRow c i rows first).epoch = s.epoch ∧
    (s.loadRow c i rows first).anchorA = s.anchorA ∧ (s.loadRow c i rows first).anchorB = s.anchorB ∧
    (s.loadRow c i rows first).slots = s.slots ∧ (s.loadRow c i rows first).slotHeaders = s.slotHeaders ∧
    (s.loadRow c i rows first).index = s.index ∧ (s.loadRow c i rows first).stack = s.stack ∧
    (s.loadRow c i rows first).nextSequence = s.nextSequence ∧
    (s.loadRow c i rows first).exhausted = s.exhausted ∧ (s.loadRow c i rows first).headerMark = s.headerMark ∧
    (s.loadRow c i rows first).longOp = s.longOp ∧ (s.loadRow c i rows first).active = s.active ∧
    (s.loadRow c i rows first).staging = s.staging ∧ (s.loadRow c i rows first).copyA = s.copyA ∧
    (s.loadRow c i rows first).copyB = s.copyB ∧ (s.loadRow c i rows first).designation = s.designation ∧
    (s.loadRow c i rows first).configDegraded = s.configDegraded ∧
    (s.loadRow c i rows first).activationDue = s.activationDue ∧ (s.loadRow c i rows first).freeze = s.freeze ∧
    (s.loadRow c i rows first).deferredFreeze = s.deferredFreeze ∧ (s.loadRow c i rows first).held = s.held ∧
    (s.loadRow c i rows first).pendingRead = s.pendingRead ∧ (s.loadRow c i rows first).queue = s.queue ∧
    (s.loadRow c i rows first).nextAcceptance = s.nextAcceptance ∧ (s.loadRow c i rows first).mark = s.mark ∧
    (s.loadRow c i rows first).frontResponse = s.frontResponse ∧ (s.loadRow c i rows first).job = s.job ∧
    (s.loadRow c i rows first).parked = s.parked ∧ (s.loadRow c i rows first).readHeld = s.readHeld ∧
    (s.loadRow c i rows first).headHeld = s.headHeld ∧ (s.loadRow c i rows first).retryCounter = s.retryCounter ∧
    (s.loadRow c i rows first).response = s.response ∧ (s.loadRow c i rows first).linkOut = s.linkOut ∧
    (s.loadRow c i rows first).completion = s.completion ∧ (s.loadRow c i rows first).ckptLatch = s.ckptLatch ∧
    (s.loadRow c i rows first).log = s.log ∧ (s.loadRow c i rows first).dropped = s.dropped ∧
    (s.loadRow c i rows first).alertMask = s.alertMask ∧ (s.loadRow c i rows first).freeCount = s.freeCount := by
  unfold State.loadRow
  all_goals try dsimp only
  all_goals repeat' split
  all_goals simp

@[simp] theorem State.endStartUnconfigured_frame (s : State) :
    (s.endStartUnconfigured).recoveryMark = s.recoveryMark ∧
    (s.endStartUnconfigured).pending = s.pending ∧ (s.endStartUnconfigured).inReset = s.inReset ∧
    (s.endStartUnconfigured).pfw = s.pfw ∧ (s.endStartUnconfigured).ckptHigh = s.ckptHigh ∧
    (s.endStartUnconfigured).mem = s.mem ∧ (s.endStartUnconfigured).epoch = s.epoch ∧
    (s.endStartUnconfigured).anchorA = s.anchorA ∧ (s.endStartUnconfigured).anchorB = s.anchorB ∧
    (s.endStartUnconfigured).slots = s.slots ∧ (s.endStartUnconfigured).slotHeaders = s.slotHeaders ∧
    (s.endStartUnconfigured).index = s.index ∧ (s.endStartUnconfigured).stack = s.stack ∧
    (s.endStartUnconfigured).nextSequence = s.nextSequence ∧ (s.endStartUnconfigured).exhausted = s.exhausted ∧
    (s.endStartUnconfigured).headerMark = s.headerMark ∧ (s.endStartUnconfigured).active = s.active ∧
    (s.endStartUnconfigured).copyA = s.copyA ∧ (s.endStartUnconfigured).copyB = s.copyB ∧
    (s.endStartUnconfigured).configDegraded = s.configDegraded ∧
    (s.endStartUnconfigured).activationDue = s.activationDue ∧ (s.endStartUnconfigured).freeze = s.freeze ∧
    (s.endStartUnconfigured).deferredFreeze = s.deferredFreeze ∧
    (s.endStartUnconfigured).pendingRead = s.pendingRead ∧
    (s.endStartUnconfigured).nextAcceptance = s.nextAcceptance ∧ (s.endStartUnconfigured).job = s.job ∧
    (s.endStartUnconfigured).port = s.port ∧ (s.endStartUnconfigured).waitFront = s.waitFront ∧
    (s.endStartUnconfigured).waitMaint = s.waitMaint ∧ (s.endStartUnconfigured).lastServed = s.lastServed ∧
    (s.endStartUnconfigured).retryCounter = s.retryCounter ∧ (s.endStartUnconfigured).response = s.response ∧
    (s.endStartUnconfigured).linkOut = s.linkOut ∧ (s.endStartUnconfigured).completion = s.completion ∧
    (s.endStartUnconfigured).alertMask = s.alertMask := by
  unfold State.endStartUnconfigured
  all_goals try dsimp only
  all_goals repeat' split
  all_goals simp

@[simp] theorem State.install_frame (s : State) (c : ConfigRecord) (from_ : Copy) (degraded : Option Copy) :
    (s.install c from_ degraded).recoveryMark = s.recoveryMark ∧
    (s.install c from_ degraded).pending = s.pending ∧ (s.install c from_ degraded).inReset = s.inReset ∧
    (s.install c from_ degraded).pfw = s.pfw ∧ (s.install c from_ degraded).ckptHigh = s.ckptHigh ∧
    (s.install c from_ degraded).mem = s.mem ∧ (s.install c from_ degraded).epoch = s.epoch ∧
    (s.install c from_ degraded).anchorA = s.anchorA ∧ (s.install c from_ degraded).anchorB = s.anchorB ∧
    (s.install c from_ degraded).slots = s.slots ∧ (s.install c from_ degraded).slotHeaders = s.slotHeaders ∧
    (s.install c from_ degraded).index = s.index ∧ (s.install c from_ degraded).stack = s.stack ∧
    (s.install c from_ degraded).nextSequence = s.nextSequence ∧
    (s.install c from_ degraded).exhausted = s.exhausted ∧
    (s.install c from_ degraded).headerMark = s.headerMark ∧ (s.install c from_ degraded).copyA = s.copyA ∧
    (s.install c from_ degraded).copyB = s.copyB ∧ (s.install c from_ degraded).activationDue = s.activationDue ∧
    (s.install c from_ degraded).freeze = s.freeze ∧
    (s.install c from_ degraded).deferredFreeze = s.deferredFreeze ∧ (s.install c from_ degraded).job = s.job ∧
    (s.install c from_ degraded).retryCounter = s.retryCounter ∧
    (s.install c from_ degraded).response = s.response ∧ (s.install c from_ degraded).linkOut = s.linkOut ∧
    (s.install c from_ degraded).completion = s.completion := by
  unfold State.install
  all_goals try dsimp only
  all_goals repeat' split
  all_goals simp

@[simp] theorem State.selectConfig_frame (s : State) (a b : Option ConfigRecord) :
    (s.selectConfig a b).recoveryMark = s.recoveryMark ∧
    (s.selectConfig a b).pending = s.pending ∧ (s.selectConfig a b).inReset = s.inReset ∧
    (s.selectConfig a b).pfw = s.pfw ∧ (s.selectConfig a b).ckptHigh = s.ckptHigh ∧
    (s.selectConfig a b).mem = s.mem ∧ (s.selectConfig a b).epoch = s.epoch ∧
    (s.selectConfig a b).anchorA = s.anchorA ∧ (s.selectConfig a b).anchorB = s.anchorB ∧
    (s.selectConfig a b).slots = s.slots ∧ (s.selectConfig a b).slotHeaders = s.slotHeaders ∧
    (s.selectConfig a b).index = s.index ∧ (s.selectConfig a b).stack = s.stack ∧
    (s.selectConfig a b).nextSequence = s.nextSequence ∧ (s.selectConfig a b).exhausted = s.exhausted ∧
    (s.selectConfig a b).headerMark = s.headerMark ∧ (s.selectConfig a b).copyA = s.copyA ∧
    (s.selectConfig a b).copyB = s.copyB ∧ (s.selectConfig a b).activationDue = s.activationDue ∧
    (s.selectConfig a b).freeze = s.freeze ∧ (s.selectConfig a b).deferredFreeze = s.deferredFreeze ∧
    (s.selectConfig a b).job = s.job ∧ (s.selectConfig a b).retryCounter = s.retryCounter ∧
    (s.selectConfig a b).response = s.response ∧ (s.selectConfig a b).linkOut = s.linkOut ∧
    (s.selectConfig a b).completion = s.completion := by
  unfold State.selectConfig
  all_goals try dsimp only
  all_goals repeat' split
  all_goals simp

@[simp] theorem State.copyClassified_frame (s : State) (c : Copy) (record : Option ConfigRecord) (first : Option ConfigRecord) :
    (s.copyClassified c record first).recoveryMark = s.recoveryMark ∧
    (s.copyClassified c record first).pending = s.pending ∧
    (s.copyClassified c record first).inReset = s.inReset ∧ (s.copyClassified c record first).pfw = s.pfw ∧
    (s.copyClassified c record first).ckptHigh = s.ckptHigh ∧ (s.copyClassified c record first).mem = s.mem ∧
    (s.copyClassified c record first).epoch = s.epoch ∧ (s.copyClassified c record first).anchorA = s.anchorA ∧
    (s.copyClassified c record first).anchorB = s.anchorB ∧ (s.copyClassified c record first).slots = s.slots ∧
    (s.copyClassified c record first).slotHeaders = s.slotHeaders ∧
    (s.copyClassified c record first).index = s.index ∧ (s.copyClassified c record first).stack = s.stack ∧
    (s.copyClassified c record first).nextSequence = s.nextSequence ∧
    (s.copyClassified c record first).exhausted = s.exhausted ∧
    (s.copyClassified c record first).headerMark = s.headerMark ∧
    (s.copyClassified c record first).activationDue = s.activationDue ∧
    (s.copyClassified c record first).freeze = s.freeze ∧
    (s.copyClassified c record first).deferredFreeze = s.deferredFreeze ∧
    (s.copyClassified c record first).job = s.job ∧
    (s.copyClassified c record first).retryCounter = s.retryCounter ∧
    (s.copyClassified c record first).response = s.response ∧
    (s.copyClassified c record first).linkOut = s.linkOut ∧
    (s.copyClassified c record first).completion = s.completion := by
  unfold State.copyClassified
  all_goals try dsimp only
  all_goals repeat' split
  all_goals simp

@[simp] theorem State.loadRowRead_frame (s : State) (c : Copy) (i : Nat) (rows : List RowData) (first : Option ConfigRecord) (r : Row) :
    (s.loadRowRead c i rows first r).recoveryMark = s.recoveryMark ∧
    (s.loadRowRead c i rows first r).pending = s.pending ∧ (s.loadRowRead c i rows first r).inReset = s.inReset ∧
    (s.loadRowRead c i rows first r).pfw = s.pfw ∧ (s.loadRowRead c i rows first r).ckptHigh = s.ckptHigh ∧
    (s.loadRowRead c i rows first r).mem = s.mem ∧ (s.loadRowRead c i rows first r).epoch = s.epoch ∧
    (s.loadRowRead c i rows first r).anchorA = s.anchorA ∧ (s.loadRowRead c i rows first r).anchorB = s.anchorB ∧
    (s.loadRowRead c i rows first r).slots = s.slots ∧
    (s.loadRowRead c i rows first r).slotHeaders = s.slotHeaders ∧
    (s.loadRowRead c i rows first r).index = s.index ∧ (s.loadRowRead c i rows first r).stack = s.stack ∧
    (s.loadRowRead c i rows first r).nextSequence = s.nextSequence ∧
    (s.loadRowRead c i rows first r).exhausted = s.exhausted ∧
    (s.loadRowRead c i rows first r).headerMark = s.headerMark ∧
    (s.loadRowRead c i rows first r).activationDue = s.activationDue ∧
    (s.loadRowRead c i rows first r).freeze = s.freeze ∧
    (s.loadRowRead c i rows first r).deferredFreeze = s.deferredFreeze ∧
    (s.loadRowRead c i rows first r).job = s.job ∧
    (s.loadRowRead c i rows first r).retryCounter = s.retryCounter ∧
    (s.loadRowRead c i rows first r).response = s.response ∧
    (s.loadRowRead c i rows first r).linkOut = s.linkOut ∧
    (s.loadRowRead c i rows first r).completion = s.completion := by
  unfold State.loadRowRead
  all_goals try dsimp only
  all_goals repeat' split
  all_goals simp

@[simp] theorem State.loadRowFailed_frame (s : State) (c : Copy) (i : Nat) (first : Option ConfigRecord) (kind : FaultKind) :
    (s.loadRowFailed c i first kind).recoveryMark = s.recoveryMark ∧
    (s.loadRowFailed c i first kind).pending = s.pending ∧ (s.loadRowFailed c i first kind).inReset = s.inReset ∧
    (s.loadRowFailed c i first kind).pfw = s.pfw ∧ (s.loadRowFailed c i first kind).ckptHigh = s.ckptHigh ∧
    (s.loadRowFailed c i first kind).mem = s.mem ∧ (s.loadRowFailed c i first kind).epoch = s.epoch ∧
    (s.loadRowFailed c i first kind).anchorA = s.anchorA ∧ (s.loadRowFailed c i first kind).anchorB = s.anchorB ∧
    (s.loadRowFailed c i first kind).slots = s.slots ∧
    (s.loadRowFailed c i first kind).slotHeaders = s.slotHeaders ∧
    (s.loadRowFailed c i first kind).index = s.index ∧ (s.loadRowFailed c i first kind).stack = s.stack ∧
    (s.loadRowFailed c i first kind).nextSequence = s.nextSequence ∧
    (s.loadRowFailed c i first kind).exhausted = s.exhausted ∧
    (s.loadRowFailed c i first kind).headerMark = s.headerMark ∧
    (s.loadRowFailed c i first kind).activationDue = s.activationDue ∧
    (s.loadRowFailed c i first kind).freeze = s.freeze ∧
    (s.loadRowFailed c i first kind).deferredFreeze = s.deferredFreeze ∧
    (s.loadRowFailed c i first kind).job = s.job ∧
    (s.loadRowFailed c i first kind).retryCounter = s.retryCounter ∧
    (s.loadRowFailed c i first kind).response = s.response ∧
    (s.loadRowFailed c i first kind).linkOut = s.linkOut ∧
    (s.loadRowFailed c i first kind).completion = s.completion := by
  unfold State.loadRowFailed
  all_goals try dsimp only
  all_goals repeat' split
  all_goals simp

@[simp] theorem State.startCopyWrite_frame (s : State) (c : Copy) :
    (s.startCopyWrite c).recoveryMark = s.recoveryMark ∧
    (s.startCopyWrite c).pending = s.pending ∧ (s.startCopyWrite c).inReset = s.inReset ∧
    (s.startCopyWrite c).operating = s.operating ∧ (s.startCopyWrite c).pfw = s.pfw ∧
    (s.startCopyWrite c).ckptHigh = s.ckptHigh ∧ (s.startCopyWrite c).mem = s.mem ∧
    (s.startCopyWrite c).journal = s.journal ∧ (s.startCopyWrite c).epoch = s.epoch ∧
    (s.startCopyWrite c).anchorA = s.anchorA ∧ (s.startCopyWrite c).anchorB = s.anchorB ∧
    (s.startCopyWrite c).slots = s.slots ∧ (s.startCopyWrite c).slotHeaders = s.slotHeaders ∧
    (s.startCopyWrite c).index = s.index ∧ (s.startCopyWrite c).stack = s.stack ∧
    (s.startCopyWrite c).nextSequence = s.nextSequence ∧ (s.startCopyWrite c).exhausted = s.exhausted ∧
    (s.startCopyWrite c).headerMark = s.headerMark ∧ (s.startCopyWrite c).longOp = s.longOp ∧
    (s.startCopyWrite c).active = s.active ∧ (s.startCopyWrite c).staging = s.staging ∧
    (s.startCopyWrite c).designation = s.designation ∧ (s.startCopyWrite c).configDegraded = s.configDegraded ∧
    (s.startCopyWrite c).activationDue = s.activationDue ∧ (s.startCopyWrite c).freeze = s.freeze ∧
    (s.startCopyWrite c).deferredFreeze = s.deferredFreeze ∧ (s.startCopyWrite c).held = s.held ∧
    (s.startCopyWrite c).pendingRead = s.pendingRead ∧ (s.startCopyWrite c).queue = s.queue ∧
    (s.startCopyWrite c).nextAcceptance = s.nextAcceptance ∧ (s.startCopyWrite c).mark = s.mark ∧
    (s.startCopyWrite c).frontResponse = s.frontResponse ∧ (s.startCopyWrite c).job = s.job ∧
    (s.startCopyWrite c).parked = s.parked ∧ (s.startCopyWrite c).readHeld = s.readHeld ∧
    (s.startCopyWrite c).headHeld = s.headHeld ∧ (s.startCopyWrite c).retryCounter = s.retryCounter ∧
    (s.startCopyWrite c).response = s.response ∧ (s.startCopyWrite c).linkOut = s.linkOut ∧
    (s.startCopyWrite c).completion = s.completion ∧ (s.startCopyWrite c).ckptLatch = s.ckptLatch ∧
    (s.startCopyWrite c).log = s.log ∧ (s.startCopyWrite c).dropped = s.dropped ∧
    (s.startCopyWrite c).alertMask = s.alertMask ∧ (s.startCopyWrite c).freeCount = s.freeCount := by
  unfold State.startCopyWrite
  all_goals try dsimp only
  all_goals repeat' split
  all_goals simp

@[simp] theorem State.writeBody_frame (s : State) (c : Copy) (i : Nat) :
    (s.writeBody c i).recoveryMark = s.recoveryMark ∧
    (s.writeBody c i).pending = s.pending ∧ (s.writeBody c i).inReset = s.inReset ∧
    (s.writeBody c i).operating = s.operating ∧ (s.writeBody c i).pfw = s.pfw ∧
    (s.writeBody c i).ckptHigh = s.ckptHigh ∧ (s.writeBody c i).mem = s.mem ∧
    (s.writeBody c i).journal = s.journal ∧ (s.writeBody c i).epoch = s.epoch ∧
    (s.writeBody c i).anchorA = s.anchorA ∧ (s.writeBody c i).anchorB = s.anchorB ∧
    (s.writeBody c i).slots = s.slots ∧ (s.writeBody c i).slotHeaders = s.slotHeaders ∧
    (s.writeBody c i).index = s.index ∧ (s.writeBody c i).stack = s.stack ∧
    (s.writeBody c i).nextSequence = s.nextSequence ∧ (s.writeBody c i).exhausted = s.exhausted ∧
    (s.writeBody c i).headerMark = s.headerMark ∧ (s.writeBody c i).longOp = s.longOp ∧
    (s.writeBody c i).active = s.active ∧ (s.writeBody c i).staging = s.staging ∧
    (s.writeBody c i).copyA = s.copyA ∧ (s.writeBody c i).copyB = s.copyB ∧
    (s.writeBody c i).designation = s.designation ∧ (s.writeBody c i).configDegraded = s.configDegraded ∧
    (s.writeBody c i).activationDue = s.activationDue ∧ (s.writeBody c i).freeze = s.freeze ∧
    (s.writeBody c i).deferredFreeze = s.deferredFreeze ∧ (s.writeBody c i).held = s.held ∧
    (s.writeBody c i).pendingRead = s.pendingRead ∧ (s.writeBody c i).queue = s.queue ∧
    (s.writeBody c i).nextAcceptance = s.nextAcceptance ∧ (s.writeBody c i).mark = s.mark ∧
    (s.writeBody c i).frontResponse = s.frontResponse ∧ (s.writeBody c i).job = s.job ∧
    (s.writeBody c i).parked = s.parked ∧ (s.writeBody c i).readHeld = s.readHeld ∧
    (s.writeBody c i).headHeld = s.headHeld ∧ (s.writeBody c i).retryCounter = s.retryCounter ∧
    (s.writeBody c i).response = s.response ∧ (s.writeBody c i).linkOut = s.linkOut ∧
    (s.writeBody c i).completion = s.completion ∧ (s.writeBody c i).ckptLatch = s.ckptLatch ∧
    (s.writeBody c i).log = s.log ∧ (s.writeBody c i).dropped = s.dropped ∧
    (s.writeBody c i).alertMask = s.alertMask ∧ (s.writeBody c i).freeCount = s.freeCount := by
  unfold State.writeBody
  all_goals try dsimp only
  all_goals repeat' split
  all_goals simp

@[simp] theorem State.writeClosing_frame (s : State) (c : Copy) :
    (s.writeClosing c).recoveryMark = s.recoveryMark ∧
    (s.writeClosing c).pending = s.pending ∧ (s.writeClosing c).inReset = s.inReset ∧
    (s.writeClosing c).operating = s.operating ∧ (s.writeClosing c).pfw = s.pfw ∧
    (s.writeClosing c).ckptHigh = s.ckptHigh ∧ (s.writeClosing c).mem = s.mem ∧
    (s.writeClosing c).journal = s.journal ∧ (s.writeClosing c).epoch = s.epoch ∧
    (s.writeClosing c).anchorA = s.anchorA ∧ (s.writeClosing c).anchorB = s.anchorB ∧
    (s.writeClosing c).slots = s.slots ∧ (s.writeClosing c).slotHeaders = s.slotHeaders ∧
    (s.writeClosing c).index = s.index ∧ (s.writeClosing c).stack = s.stack ∧
    (s.writeClosing c).nextSequence = s.nextSequence ∧ (s.writeClosing c).exhausted = s.exhausted ∧
    (s.writeClosing c).headerMark = s.headerMark ∧ (s.writeClosing c).longOp = s.longOp ∧
    (s.writeClosing c).active = s.active ∧ (s.writeClosing c).staging = s.staging ∧
    (s.writeClosing c).copyA = s.copyA ∧ (s.writeClosing c).copyB = s.copyB ∧
    (s.writeClosing c).designation = s.designation ∧ (s.writeClosing c).configDegraded = s.configDegraded ∧
    (s.writeClosing c).activationDue = s.activationDue ∧ (s.writeClosing c).freeze = s.freeze ∧
    (s.writeClosing c).deferredFreeze = s.deferredFreeze ∧ (s.writeClosing c).held = s.held ∧
    (s.writeClosing c).pendingRead = s.pendingRead ∧ (s.writeClosing c).queue = s.queue ∧
    (s.writeClosing c).nextAcceptance = s.nextAcceptance ∧ (s.writeClosing c).mark = s.mark ∧
    (s.writeClosing c).frontResponse = s.frontResponse ∧ (s.writeClosing c).job = s.job ∧
    (s.writeClosing c).parked = s.parked ∧ (s.writeClosing c).readHeld = s.readHeld ∧
    (s.writeClosing c).headHeld = s.headHeld ∧ (s.writeClosing c).retryCounter = s.retryCounter ∧
    (s.writeClosing c).response = s.response ∧ (s.writeClosing c).linkOut = s.linkOut ∧
    (s.writeClosing c).completion = s.completion ∧ (s.writeClosing c).ckptLatch = s.ckptLatch ∧
    (s.writeClosing c).log = s.log ∧ (s.writeClosing c).dropped = s.dropped ∧
    (s.writeClosing c).alertMask = s.alertMask ∧ (s.writeClosing c).freeCount = s.freeCount := by
  unfold State.writeClosing
  all_goals try dsimp only
  all_goals repeat' split
  all_goals simp

@[simp] theorem State.confirmRow_frame (s : State) (c : Copy) (i : Nat) (rows : List Row) :
    (s.confirmRow c i rows).recoveryMark = s.recoveryMark ∧
    (s.confirmRow c i rows).pending = s.pending ∧ (s.confirmRow c i rows).inReset = s.inReset ∧
    (s.confirmRow c i rows).operating = s.operating ∧ (s.confirmRow c i rows).pfw = s.pfw ∧
    (s.confirmRow c i rows).ckptHigh = s.ckptHigh ∧ (s.confirmRow c i rows).mem = s.mem ∧
    (s.confirmRow c i rows).journal = s.journal ∧ (s.confirmRow c i rows).epoch = s.epoch ∧
    (s.confirmRow c i rows).anchorA = s.anchorA ∧ (s.confirmRow c i rows).anchorB = s.anchorB ∧
    (s.confirmRow c i rows).slots = s.slots ∧ (s.confirmRow c i rows).slotHeaders = s.slotHeaders ∧
    (s.confirmRow c i rows).index = s.index ∧ (s.confirmRow c i rows).stack = s.stack ∧
    (s.confirmRow c i rows).nextSequence = s.nextSequence ∧ (s.confirmRow c i rows).exhausted = s.exhausted ∧
    (s.confirmRow c i rows).headerMark = s.headerMark ∧ (s.confirmRow c i rows).longOp = s.longOp ∧
    (s.confirmRow c i rows).active = s.active ∧ (s.confirmRow c i rows).staging = s.staging ∧
    (s.confirmRow c i rows).copyA = s.copyA ∧ (s.confirmRow c i rows).copyB = s.copyB ∧
    (s.confirmRow c i rows).designation = s.designation ∧
    (s.confirmRow c i rows).configDegraded = s.configDegraded ∧
    (s.confirmRow c i rows).activationDue = s.activationDue ∧ (s.confirmRow c i rows).freeze = s.freeze ∧
    (s.confirmRow c i rows).deferredFreeze = s.deferredFreeze ∧ (s.confirmRow c i rows).held = s.held ∧
    (s.confirmRow c i rows).pendingRead = s.pendingRead ∧ (s.confirmRow c i rows).queue = s.queue ∧
    (s.confirmRow c i rows).nextAcceptance = s.nextAcceptance ∧ (s.confirmRow c i rows).mark = s.mark ∧
    (s.confirmRow c i rows).frontResponse = s.frontResponse ∧ (s.confirmRow c i rows).job = s.job ∧
    (s.confirmRow c i rows).parked = s.parked ∧ (s.confirmRow c i rows).readHeld = s.readHeld ∧
    (s.confirmRow c i rows).headHeld = s.headHeld ∧ (s.confirmRow c i rows).retryCounter = s.retryCounter ∧
    (s.confirmRow c i rows).response = s.response ∧ (s.confirmRow c i rows).linkOut = s.linkOut ∧
    (s.confirmRow c i rows).completion = s.completion ∧ (s.confirmRow c i rows).ckptLatch = s.ckptLatch ∧
    (s.confirmRow c i rows).log = s.log ∧ (s.confirmRow c i rows).dropped = s.dropped ∧
    (s.confirmRow c i rows).alertMask = s.alertMask ∧ (s.confirmRow c i rows).freeCount = s.freeCount := by
  unfold State.confirmRow
  all_goals try dsimp only
  all_goals repeat' split
  all_goals simp

@[simp] theorem State.executeApply_frame (s : State) :
    (s.executeApply).pending = s.pending ∧ (s.executeApply).inReset = s.inReset ∧ (s.executeApply).pfw = s.pfw ∧
    (s.executeApply).ckptHigh = s.ckptHigh ∧ (s.executeApply).mem = s.mem ∧ (s.executeApply).epoch = s.epoch ∧
    (s.executeApply).anchorA = s.anchorA ∧ (s.executeApply).anchorB = s.anchorB ∧
    (s.executeApply).slots = s.slots ∧ (s.executeApply).slotHeaders = s.slotHeaders ∧
    (s.executeApply).index = s.index ∧ (s.executeApply).stack = s.stack ∧
    (s.executeApply).nextSequence = s.nextSequence ∧ (s.executeApply).exhausted = s.exhausted ∧
    (s.executeApply).headerMark = s.headerMark ∧ (s.executeApply).active = s.active ∧
    (s.executeApply).staging = s.staging ∧ (s.executeApply).designation = s.designation ∧
    (s.executeApply).configDegraded = s.configDegraded ∧ (s.executeApply).activationDue = s.activationDue ∧
    (s.executeApply).freeze = s.freeze ∧ (s.executeApply).deferredFreeze = s.deferredFreeze ∧
    (s.executeApply).held = s.held ∧ (s.executeApply).pendingRead = s.pendingRead ∧
    (s.executeApply).nextAcceptance = s.nextAcceptance ∧ (s.executeApply).job = s.job ∧
    (s.executeApply).retryCounter = s.retryCounter ∧ (s.executeApply).response = s.response ∧
    (s.executeApply).linkOut = s.linkOut ∧ (s.executeApply).alertMask = s.alertMask ∧
    (s.executeApply).freeCount = s.freeCount := by
  unfold State.executeApply
  all_goals try dsimp only
  all_goals repeat' split
  all_goals simp

@[simp] theorem State.applyFailed_frame (s : State) (row : Nat) (kind : FaultKind) :
    (s.applyFailed row kind).pending = s.pending ∧ (s.applyFailed row kind).inReset = s.inReset ∧
    (s.applyFailed row kind).pfw = s.pfw ∧ (s.applyFailed row kind).ckptHigh = s.ckptHigh ∧
    (s.applyFailed row kind).mem = s.mem ∧ (s.applyFailed row kind).epoch = s.epoch ∧
    (s.applyFailed row kind).anchorA = s.anchorA ∧ (s.applyFailed row kind).anchorB = s.anchorB ∧
    (s.applyFailed row kind).slots = s.slots ∧ (s.applyFailed row kind).slotHeaders = s.slotHeaders ∧
    (s.applyFailed row kind).index = s.index ∧ (s.applyFailed row kind).stack = s.stack ∧
    (s.applyFailed row kind).nextSequence = s.nextSequence ∧ (s.applyFailed row kind).exhausted = s.exhausted ∧
    (s.applyFailed row kind).active = s.active ∧ (s.applyFailed row kind).staging = s.staging ∧
    (s.applyFailed row kind).copyA = s.copyA ∧ (s.applyFailed row kind).copyB = s.copyB ∧
    (s.applyFailed row kind).designation = s.designation ∧
    (s.applyFailed row kind).configDegraded = s.configDegraded ∧
    (s.applyFailed row kind).activationDue = s.activationDue ∧ (s.applyFailed row kind).freeze = s.freeze ∧
    (s.applyFailed row kind).deferredFreeze = s.deferredFreeze ∧ (s.applyFailed row kind).held = s.held ∧
    (s.applyFailed row kind).pendingRead = s.pendingRead ∧
    (s.applyFailed row kind).nextAcceptance = s.nextAcceptance ∧ (s.applyFailed row kind).job = s.job ∧
    (s.applyFailed row kind).port = s.port ∧ (s.applyFailed row kind).waitFront = s.waitFront ∧
    (s.applyFailed row kind).waitMaint = s.waitMaint ∧ (s.applyFailed row kind).lastServed = s.lastServed ∧
    (s.applyFailed row kind).retryCounter = s.retryCounter ∧ (s.applyFailed row kind).response = s.response ∧
    (s.applyFailed row kind).linkOut = s.linkOut ∧ (s.applyFailed row kind).alertMask = s.alertMask ∧
    (s.applyFailed row kind).freeCount = s.freeCount := by
  unfold State.applyFailed
  all_goals try dsimp only
  all_goals repeat' split
  all_goals simp

@[simp] theorem State.copyReadBack_frame (s : State) (c : Copy) (rows : List Row) :
    (s.copyReadBack c rows).pending = s.pending ∧ (s.copyReadBack c rows).inReset = s.inReset ∧
    (s.copyReadBack c rows).pfw = s.pfw ∧ (s.copyReadBack c rows).ckptHigh = s.ckptHigh ∧
    (s.copyReadBack c rows).mem = s.mem ∧ (s.copyReadBack c rows).epoch = s.epoch ∧
    (s.copyReadBack c rows).anchorA = s.anchorA ∧ (s.copyReadBack c rows).anchorB = s.anchorB ∧
    (s.copyReadBack c rows).slots = s.slots ∧ (s.copyReadBack c rows).slotHeaders = s.slotHeaders ∧
    (s.copyReadBack c rows).index = s.index ∧ (s.copyReadBack c rows).stack = s.stack ∧
    (s.copyReadBack c rows).nextSequence = s.nextSequence ∧ (s.copyReadBack c rows).exhausted = s.exhausted ∧
    (s.copyReadBack c rows).active = s.active ∧ (s.copyReadBack c rows).staging = s.staging ∧
    (s.copyReadBack c rows).designation = s.designation ∧
    (s.copyReadBack c rows).configDegraded = s.configDegraded ∧ (s.copyReadBack c rows).freeze = s.freeze ∧
    (s.copyReadBack c rows).deferredFreeze = s.deferredFreeze ∧ (s.copyReadBack c rows).held = s.held ∧
    (s.copyReadBack c rows).pendingRead = s.pendingRead ∧
    (s.copyReadBack c rows).nextAcceptance = s.nextAcceptance ∧ (s.copyReadBack c rows).job = s.job ∧
    (s.copyReadBack c rows).retryCounter = s.retryCounter ∧ (s.copyReadBack c rows).response = s.response ∧
    (s.copyReadBack c rows).linkOut = s.linkOut ∧ (s.copyReadBack c rows).alertMask = s.alertMask ∧
    (s.copyReadBack c rows).freeCount = s.freeCount := by
  unfold State.copyReadBack
  all_goals try dsimp only
  all_goals repeat' split
  all_goals simp

@[simp] theorem State.dropJournal_frame (s : State) :
    (s.dropJournal).recoveryMark = s.recoveryMark ∧
    (s.dropJournal).pending = s.pending ∧ (s.dropJournal).inReset = s.inReset ∧
    (s.dropJournal).operating = s.operating ∧ (s.dropJournal).pfw = s.pfw ∧
    (s.dropJournal).ckptHigh = s.ckptHigh ∧ (s.dropJournal).mem = s.mem ∧ (s.dropJournal).journal = s.journal ∧
    (s.dropJournal).longOp = s.longOp ∧ (s.dropJournal).maint = s.maint ∧ (s.dropJournal).active = s.active ∧
    (s.dropJournal).staging = s.staging ∧ (s.dropJournal).copyA = s.copyA ∧ (s.dropJournal).copyB = s.copyB ∧
    (s.dropJournal).designation = s.designation ∧ (s.dropJournal).configDegraded = s.configDegraded ∧
    (s.dropJournal).activationDue = s.activationDue ∧ (s.dropJournal).freeze = s.freeze ∧
    (s.dropJournal).deferredFreeze = s.deferredFreeze ∧ (s.dropJournal).held = s.held ∧
    (s.dropJournal).pendingRead = s.pendingRead ∧ (s.dropJournal).queue = s.queue ∧
    (s.dropJournal).nextAcceptance = s.nextAcceptance ∧ (s.dropJournal).mark = s.mark ∧
    (s.dropJournal).frontResponse = s.frontResponse ∧ (s.dropJournal).job = s.job ∧
    (s.dropJournal).parked = s.parked ∧ (s.dropJournal).readHeld = s.readHeld ∧
    (s.dropJournal).headHeld = s.headHeld ∧ (s.dropJournal).port = s.port ∧
    (s.dropJournal).waitFront = s.waitFront ∧ (s.dropJournal).waitMaint = s.waitMaint ∧
    (s.dropJournal).lastServed = s.lastServed ∧ (s.dropJournal).retryCounter = s.retryCounter ∧
    (s.dropJournal).response = s.response ∧ (s.dropJournal).linkOut = s.linkOut ∧
    (s.dropJournal).completion = s.completion ∧ (s.dropJournal).ckptLatch = s.ckptLatch ∧
    (s.dropJournal).log = s.log ∧ (s.dropJournal).dropped = s.dropped ∧ (s.dropJournal).alertMask = s.alertMask ∧
    (s.dropJournal).freeCount = s.freeCount := by
  unfold State.dropJournal
  all_goals try dsimp only
  all_goals repeat' split
  all_goals simp

@[simp] theorem State.applyJournalStep_frame (s : State) (unchanged : Bool) :
    (s.applyJournalStep unchanged).pending = s.pending ∧ (s.applyJournalStep unchanged).inReset = s.inReset ∧
    (s.applyJournalStep unchanged).pfw = s.pfw ∧ (s.applyJournalStep unchanged).ckptHigh = s.ckptHigh ∧
    (s.applyJournalStep unchanged).mem = s.mem ∧ (s.applyJournalStep unchanged).active = s.active ∧
    (s.applyJournalStep unchanged).staging = s.staging ∧ (s.applyJournalStep unchanged).copyA = s.copyA ∧
    (s.applyJournalStep unchanged).copyB = s.copyB ∧ (s.applyJournalStep unchanged).designation = s.designation ∧
    (s.applyJournalStep unchanged).configDegraded = s.configDegraded ∧
    (s.applyJournalStep unchanged).activationDue = s.activationDue ∧
    (s.applyJournalStep unchanged).freeze = s.freeze ∧
    (s.applyJournalStep unchanged).deferredFreeze = s.deferredFreeze ∧
    (s.applyJournalStep unchanged).held = s.held ∧ (s.applyJournalStep unchanged).pendingRead = s.pendingRead ∧
    (s.applyJournalStep unchanged).nextAcceptance = s.nextAcceptance ∧
    (s.applyJournalStep unchanged).job = s.job ∧ (s.applyJournalStep unchanged).retryCounter = s.retryCounter ∧
    (s.applyJournalStep unchanged).response = s.response ∧ (s.applyJournalStep unchanged).linkOut = s.linkOut ∧
    (s.applyJournalStep unchanged).alertMask = s.alertMask ∧
    (s.applyJournalStep unchanged).freeCount = s.freeCount := by
  unfold State.applyJournalStep
  all_goals try dsimp only
  all_goals repeat' split
  all_goals simp

@[simp] theorem State.activate_frame (s : State) :
    (s.activate).pending = s.pending ∧ (s.activate).inReset = s.inReset ∧ (s.activate).pfw = s.pfw ∧
    (s.activate).ckptHigh = s.ckptHigh ∧ (s.activate).mem = s.mem ∧ (s.activate).copyA = s.copyA ∧
    (s.activate).copyB = s.copyB ∧ (s.activate).freeze = s.freeze ∧
    (s.activate).deferredFreeze = s.deferredFreeze ∧ (s.activate).held = s.held ∧
    (s.activate).pendingRead = s.pendingRead ∧ (s.activate).nextAcceptance = s.nextAcceptance ∧
    (s.activate).job = s.job ∧ (s.activate).retryCounter = s.retryCounter ∧ (s.activate).response = s.response ∧
    (s.activate).linkOut = s.linkOut ∧ (s.activate).freeCount = s.freeCount := by
  unfold State.activate
  all_goals try dsimp only
  all_goals repeat' split
  all_goals simp

@[simp] theorem State.endWriteJob_frame (s : State) (okay : Bool) :
    (s.endWriteJob okay).recoveryMark = s.recoveryMark ∧
    (s.endWriteJob okay).pending = s.pending ∧ (s.endWriteJob okay).inReset = s.inReset ∧
    (s.endWriteJob okay).operating = s.operating ∧ (s.endWriteJob okay).pfw = s.pfw ∧
    (s.endWriteJob okay).ckptHigh = s.ckptHigh ∧ (s.endWriteJob okay).mem = s.mem ∧
    (s.endWriteJob okay).journal = s.journal ∧ (s.endWriteJob okay).epoch = s.epoch ∧
    (s.endWriteJob okay).anchorA = s.anchorA ∧ (s.endWriteJob okay).anchorB = s.anchorB ∧
    (s.endWriteJob okay).slots = s.slots ∧ (s.endWriteJob okay).slotHeaders = s.slotHeaders ∧
    (s.endWriteJob okay).index = s.index ∧ (s.endWriteJob okay).stack = s.stack ∧
    (s.endWriteJob okay).nextSequence = s.nextSequence ∧ (s.endWriteJob okay).exhausted = s.exhausted ∧
    (s.endWriteJob okay).headerMark = s.headerMark ∧ (s.endWriteJob okay).longOp = s.longOp ∧
    (s.endWriteJob okay).maint = s.maint ∧ (s.endWriteJob okay).active = s.active ∧
    (s.endWriteJob okay).staging = s.staging ∧ (s.endWriteJob okay).copyA = s.copyA ∧
    (s.endWriteJob okay).copyB = s.copyB ∧ (s.endWriteJob okay).designation = s.designation ∧
    (s.endWriteJob okay).configDegraded = s.configDegraded ∧
    (s.endWriteJob okay).activationDue = s.activationDue ∧ (s.endWriteJob okay).pendingRead = s.pendingRead ∧
    (s.endWriteJob okay).mark = s.mark ∧ (s.endWriteJob okay).parked = s.parked ∧
    (s.endWriteJob okay).readHeld = s.readHeld ∧ (s.endWriteJob okay).port = s.port ∧
    (s.endWriteJob okay).waitFront = s.waitFront ∧ (s.endWriteJob okay).waitMaint = s.waitMaint ∧
    (s.endWriteJob okay).lastServed = s.lastServed ∧ (s.endWriteJob okay).retryCounter = s.retryCounter ∧
    (s.endWriteJob okay).linkOut = s.linkOut ∧ (s.endWriteJob okay).completion = s.completion ∧
    (s.endWriteJob okay).ckptLatch = s.ckptLatch ∧ (s.endWriteJob okay).log = s.log ∧
    (s.endWriteJob okay).dropped = s.dropped ∧ (s.endWriteJob okay).alertMask = s.alertMask ∧
    (s.endWriteJob okay).freeCount = s.freeCount := by
  unfold State.endWriteJob
  all_goals try dsimp only
  all_goals repeat' split
  all_goals simp

@[simp] theorem State.refuseWriteJob_frame (s : State) (j : Job) (kind : FaultKind) (row : Nat) (slot : Option Nat) (partialDone : Bool) :
    (s.refuseWriteJob j kind row slot partialDone).recoveryMark = s.recoveryMark ∧
    (s.refuseWriteJob j kind row slot partialDone).pending = s.pending ∧
    (s.refuseWriteJob j kind row slot partialDone).inReset = s.inReset ∧
    (s.refuseWriteJob j kind row slot partialDone).operating = s.operating ∧
    (s.refuseWriteJob j kind row slot partialDone).pfw = s.pfw ∧
    (s.refuseWriteJob j kind row slot partialDone).ckptHigh = s.ckptHigh ∧
    (s.refuseWriteJob j kind row slot partialDone).mem = s.mem ∧
    (s.refuseWriteJob j kind row slot partialDone).journal = s.journal ∧
    (s.refuseWriteJob j kind row slot partialDone).epoch = s.epoch ∧
    (s.refuseWriteJob j kind row slot partialDone).anchorA = s.anchorA ∧
    (s.refuseWriteJob j kind row slot partialDone).anchorB = s.anchorB ∧
    (s.refuseWriteJob j kind row slot partialDone).slots = s.slots ∧
    (s.refuseWriteJob j kind row slot partialDone).slotHeaders = s.slotHeaders ∧
    (s.refuseWriteJob j kind row slot partialDone).index = s.index ∧
    (s.refuseWriteJob j kind row slot partialDone).stack = s.stack ∧
    (s.refuseWriteJob j kind row slot partialDone).nextSequence = s.nextSequence ∧
    (s.refuseWriteJob j kind row slot partialDone).exhausted = s.exhausted ∧
    (s.refuseWriteJob j kind row slot partialDone).headerMark = s.headerMark ∧
    (s.refuseWriteJob j kind row slot partialDone).longOp = s.longOp ∧
    (s.refuseWriteJob j kind row slot partialDone).maint = s.maint ∧
    (s.refuseWriteJob j kind row slot partialDone).active = s.active ∧
    (s.refuseWriteJob j kind row slot partialDone).staging = s.staging ∧
    (s.refuseWriteJob j kind row slot partialDone).copyA = s.copyA ∧
    (s.refuseWriteJob j kind row slot partialDone).copyB = s.copyB ∧
    (s.refuseWriteJob j kind row slot partialDone).designation = s.designation ∧
    (s.refuseWriteJob j kind row slot partialDone).configDegraded = s.configDegraded ∧
    (s.refuseWriteJob j kind row slot partialDone).activationDue = s.activationDue ∧
    (s.refuseWriteJob j kind row slot partialDone).pendingRead = s.pendingRead ∧
    (s.refuseWriteJob j kind row slot partialDone).mark = s.mark ∧
    (s.refuseWriteJob j kind row slot partialDone).parked = s.parked ∧
    (s.refuseWriteJob j kind row slot partialDone).readHeld = s.readHeld ∧
    (s.refuseWriteJob j kind row slot partialDone).port = s.port ∧
    (s.refuseWriteJob j kind row slot partialDone).waitFront = s.waitFront ∧
    (s.refuseWriteJob j kind row slot partialDone).waitMaint = s.waitMaint ∧
    (s.refuseWriteJob j kind row slot partialDone).lastServed = s.lastServed ∧
    (s.refuseWriteJob j kind row slot partialDone).retryCounter = s.retryCounter ∧
    (s.refuseWriteJob j kind row slot partialDone).linkOut = s.linkOut ∧
    (s.refuseWriteJob j kind row slot partialDone).completion = s.completion ∧
    (s.refuseWriteJob j kind row slot partialDone).ckptLatch = s.ckptLatch ∧
    (s.refuseWriteJob j kind row slot partialDone).alertMask = s.alertMask ∧
    (s.refuseWriteJob j kind row slot partialDone).freeCount = s.freeCount := by
  unfold State.refuseWriteJob
  all_goals try dsimp only
  all_goals repeat' split
  all_goals simp

@[simp] theorem State.endReadJob_frame (s : State) (j : Job) :
    (s.endReadJob j).recoveryMark = s.recoveryMark ∧
    (s.endReadJob j).pending = s.pending ∧ (s.endReadJob j).inReset = s.inReset ∧
    (s.endReadJob j).operating = s.operating ∧ (s.endReadJob j).pfw = s.pfw ∧
    (s.endReadJob j).ckptHigh = s.ckptHigh ∧ (s.endReadJob j).mem = s.mem ∧ (s.endReadJob j).journal = s.journal ∧
    (s.endReadJob j).epoch = s.epoch ∧ (s.endReadJob j).anchorA = s.anchorA ∧
    (s.endReadJob j).anchorB = s.anchorB ∧ (s.endReadJob j).slots = s.slots ∧
    (s.endReadJob j).slotHeaders = s.slotHeaders ∧ (s.endReadJob j).index = s.index ∧
    (s.endReadJob j).stack = s.stack ∧ (s.endReadJob j).nextSequence = s.nextSequence ∧
    (s.endReadJob j).exhausted = s.exhausted ∧ (s.endReadJob j).headerMark = s.headerMark ∧
    (s.endReadJob j).longOp = s.longOp ∧ (s.endReadJob j).maint = s.maint ∧ (s.endReadJob j).active = s.active ∧
    (s.endReadJob j).staging = s.staging ∧ (s.endReadJob j).copyA = s.copyA ∧ (s.endReadJob j).copyB = s.copyB ∧
    (s.endReadJob j).designation = s.designation ∧ (s.endReadJob j).configDegraded = s.configDegraded ∧
    (s.endReadJob j).activationDue = s.activationDue ∧ (s.endReadJob j).freeze = s.freeze ∧
    (s.endReadJob j).deferredFreeze = s.deferredFreeze ∧ (s.endReadJob j).held = s.held ∧
    (s.endReadJob j).queue = s.queue ∧ (s.endReadJob j).nextAcceptance = s.nextAcceptance ∧
    (s.endReadJob j).mark = s.mark ∧ (s.endReadJob j).parked = s.parked ∧ (s.endReadJob j).headHeld = s.headHeld ∧
    (s.endReadJob j).port = s.port ∧ (s.endReadJob j).waitFront = s.waitFront ∧
    (s.endReadJob j).waitMaint = s.waitMaint ∧ (s.endReadJob j).lastServed = s.lastServed ∧
    (s.endReadJob j).retryCounter = s.retryCounter ∧ (s.endReadJob j).response = s.response ∧
    (s.endReadJob j).linkOut = s.linkOut ∧ (s.endReadJob j).completion = s.completion ∧
    (s.endReadJob j).ckptLatch = s.ckptLatch ∧ (s.endReadJob j).log = s.log ∧
    (s.endReadJob j).dropped = s.dropped ∧ (s.endReadJob j).alertMask = s.alertMask ∧
    (s.endReadJob j).freeCount = s.freeCount := by
  unfold State.endReadJob
  all_goals try dsimp only
  all_goals repeat' split
  all_goals simp

@[simp] theorem State.issueRead_frame (s : State) (j : Job) (i : Nat) :
    (s.issueRead j i).recoveryMark = s.recoveryMark ∧
    (s.issueRead j i).pending = s.pending ∧ (s.issueRead j i).inReset = s.inReset ∧
    (s.issueRead j i).operating = s.operating ∧ (s.issueRead j i).pfw = s.pfw ∧
    (s.issueRead j i).ckptHigh = s.ckptHigh ∧ (s.issueRead j i).mem = s.mem ∧
    (s.issueRead j i).journal = s.journal ∧ (s.issueRead j i).epoch = s.epoch ∧
    (s.issueRead j i).anchorA = s.anchorA ∧ (s.issueRead j i).anchorB = s.anchorB ∧
    (s.issueRead j i).slots = s.slots ∧ (s.issueRead j i).slotHeaders = s.slotHeaders ∧
    (s.issueRead j i).index = s.index ∧ (s.issueRead j i).stack = s.stack ∧
    (s.issueRead j i).nextSequence = s.nextSequence ∧ (s.issueRead j i).exhausted = s.exhausted ∧
    (s.issueRead j i).headerMark = s.headerMark ∧ (s.issueRead j i).longOp = s.longOp ∧
    (s.issueRead j i).maint = s.maint ∧ (s.issueRead j i).active = s.active ∧
    (s.issueRead j i).staging = s.staging ∧ (s.issueRead j i).copyA = s.copyA ∧
    (s.issueRead j i).copyB = s.copyB ∧ (s.issueRead j i).designation = s.designation ∧
    (s.issueRead j i).configDegraded = s.configDegraded ∧ (s.issueRead j i).activationDue = s.activationDue ∧
    (s.issueRead j i).freeze = s.freeze ∧ (s.issueRead j i).deferredFreeze = s.deferredFreeze ∧
    (s.issueRead j i).held = s.held ∧ (s.issueRead j i).pendingRead = s.pendingRead ∧
    (s.issueRead j i).queue = s.queue ∧ (s.issueRead j i).nextAcceptance = s.nextAcceptance ∧
    (s.issueRead j i).mark = s.mark ∧ (s.issueRead j i).frontResponse = s.frontResponse ∧
    (s.issueRead j i).parked = s.parked ∧ (s.issueRead j i).readHeld = s.readHeld ∧
    (s.issueRead j i).headHeld = s.headHeld ∧ (s.issueRead j i).retryCounter = s.retryCounter ∧
    (s.issueRead j i).response = s.response ∧ (s.issueRead j i).linkOut = s.linkOut ∧
    (s.issueRead j i).completion = s.completion ∧ (s.issueRead j i).ckptLatch = s.ckptLatch ∧
    (s.issueRead j i).log = s.log ∧ (s.issueRead j i).dropped = s.dropped ∧
    (s.issueRead j i).alertMask = s.alertMask ∧ (s.issueRead j i).freeCount = s.freeCount := by
  unfold State.issueRead
  all_goals try dsimp only
  all_goals repeat' split
  all_goals simp

@[simp] theorem State.issueWrite_frame (s : State) (j : Job) (i : Nat) :
    (s.issueWrite j i).recoveryMark = s.recoveryMark ∧
    (s.issueWrite j i).pending = s.pending ∧ (s.issueWrite j i).inReset = s.inReset ∧
    (s.issueWrite j i).operating = s.operating ∧ (s.issueWrite j i).pfw = s.pfw ∧
    (s.issueWrite j i).ckptHigh = s.ckptHigh ∧ (s.issueWrite j i).mem = s.mem ∧
    (s.issueWrite j i).journal = s.journal ∧ (s.issueWrite j i).epoch = s.epoch ∧
    (s.issueWrite j i).anchorA = s.anchorA ∧ (s.issueWrite j i).anchorB = s.anchorB ∧
    (s.issueWrite j i).slots = s.slots ∧ (s.issueWrite j i).slotHeaders = s.slotHeaders ∧
    (s.issueWrite j i).index = s.index ∧ (s.issueWrite j i).stack = s.stack ∧
    (s.issueWrite j i).nextSequence = s.nextSequence ∧ (s.issueWrite j i).exhausted = s.exhausted ∧
    (s.issueWrite j i).headerMark = s.headerMark ∧ (s.issueWrite j i).longOp = s.longOp ∧
    (s.issueWrite j i).maint = s.maint ∧ (s.issueWrite j i).active = s.active ∧
    (s.issueWrite j i).staging = s.staging ∧ (s.issueWrite j i).copyA = s.copyA ∧
    (s.issueWrite j i).copyB = s.copyB ∧ (s.issueWrite j i).designation = s.designation ∧
    (s.issueWrite j i).configDegraded = s.configDegraded ∧ (s.issueWrite j i).activationDue = s.activationDue ∧
    (s.issueWrite j i).freeze = s.freeze ∧ (s.issueWrite j i).deferredFreeze = s.deferredFreeze ∧
    (s.issueWrite j i).held = s.held ∧ (s.issueWrite j i).pendingRead = s.pendingRead ∧
    (s.issueWrite j i).queue = s.queue ∧ (s.issueWrite j i).nextAcceptance = s.nextAcceptance ∧
    (s.issueWrite j i).mark = s.mark ∧ (s.issueWrite j i).frontResponse = s.frontResponse ∧
    (s.issueWrite j i).parked = s.parked ∧ (s.issueWrite j i).readHeld = s.readHeld ∧
    (s.issueWrite j i).headHeld = s.headHeld ∧ (s.issueWrite j i).retryCounter = s.retryCounter ∧
    (s.issueWrite j i).response = s.response ∧ (s.issueWrite j i).linkOut = s.linkOut ∧
    (s.issueWrite j i).completion = s.completion ∧ (s.issueWrite j i).ckptLatch = s.ckptLatch ∧
    (s.issueWrite j i).log = s.log ∧ (s.issueWrite j i).dropped = s.dropped ∧
    (s.issueWrite j i).alertMask = s.alertMask ∧ (s.issueWrite j i).freeCount = s.freeCount := by
  unfold State.issueWrite
  all_goals try dsimp only
  all_goals repeat' split
  all_goals simp

@[simp] theorem State.startWriting_frame (s : State) (j : Job) :
    (s.startWriting j).recoveryMark = s.recoveryMark ∧
    (s.startWriting j).pending = s.pending ∧ (s.startWriting j).inReset = s.inReset ∧
    (s.startWriting j).operating = s.operating ∧ (s.startWriting j).pfw = s.pfw ∧
    (s.startWriting j).ckptHigh = s.ckptHigh ∧ (s.startWriting j).mem = s.mem ∧
    (s.startWriting j).journal = s.journal ∧ (s.startWriting j).epoch = s.epoch ∧
    (s.startWriting j).anchorA = s.anchorA ∧ (s.startWriting j).anchorB = s.anchorB ∧
    (s.startWriting j).slots = s.slots ∧ (s.startWriting j).slotHeaders = s.slotHeaders ∧
    (s.startWriting j).index = s.index ∧ (s.startWriting j).stack = s.stack ∧
    (s.startWriting j).nextSequence = s.nextSequence ∧ (s.startWriting j).exhausted = s.exhausted ∧
    (s.startWriting j).headerMark = s.headerMark ∧ (s.startWriting j).longOp = s.longOp ∧
    (s.startWriting j).maint = s.maint ∧ (s.startWriting j).active = s.active ∧
    (s.startWriting j).staging = s.staging ∧ (s.startWriting j).copyA = s.copyA ∧
    (s.startWriting j).copyB = s.copyB ∧ (s.startWriting j).designation = s.designation ∧
    (s.startWriting j).configDegraded = s.configDegraded ∧ (s.startWriting j).activationDue = s.activationDue ∧
    (s.startWriting j).pendingRead = s.pendingRead ∧ (s.startWriting j).mark = s.mark ∧
    (s.startWriting j).parked = s.parked ∧ (s.startWriting j).readHeld = s.readHeld ∧
    (s.startWriting j).retryCounter = s.retryCounter ∧ (s.startWriting j).linkOut = s.linkOut ∧
    (s.startWriting j).completion = s.completion ∧ (s.startWriting j).ckptLatch = s.ckptLatch ∧
    (s.startWriting j).log = s.log ∧ (s.startWriting j).dropped = s.dropped ∧
    (s.startWriting j).alertMask = s.alertMask ∧ (s.startWriting j).freeCount = s.freeCount := by
  unfold State.startWriting
  all_goals try dsimp only
  all_goals repeat' split
  all_goals simp

@[simp] theorem State.issueAppend_frame (s : State) (j : Job) (i slot : Nat) (sequence : Word) (step : AppendStep) :
    (s.issueAppend j i slot sequence step).recoveryMark = s.recoveryMark ∧
    (s.issueAppend j i slot sequence step).pending = s.pending ∧
    (s.issueAppend j i slot sequence step).inReset = s.inReset ∧
    (s.issueAppend j i slot sequence step).operating = s.operating ∧
    (s.issueAppend j i slot sequence step).pfw = s.pfw ∧
    (s.issueAppend j i slot sequence step).ckptHigh = s.ckptHigh ∧
    (s.issueAppend j i slot sequence step).mem = s.mem ∧
    (s.issueAppend j i slot sequence step).journal = s.journal ∧
    (s.issueAppend j i slot sequence step).epoch = s.epoch ∧
    (s.issueAppend j i slot sequence step).anchorA = s.anchorA ∧
    (s.issueAppend j i slot sequence step).anchorB = s.anchorB ∧
    (s.issueAppend j i slot sequence step).slots = s.slots ∧
    (s.issueAppend j i slot sequence step).slotHeaders = s.slotHeaders ∧
    (s.issueAppend j i slot sequence step).index = s.index ∧
    (s.issueAppend j i slot sequence step).stack = s.stack ∧
    (s.issueAppend j i slot sequence step).nextSequence = s.nextSequence ∧
    (s.issueAppend j i slot sequence step).exhausted = s.exhausted ∧
    (s.issueAppend j i slot sequence step).longOp = s.longOp ∧
    (s.issueAppend j i slot sequence step).maint = s.maint ∧
    (s.issueAppend j i slot sequence step).active = s.active ∧
    (s.issueAppend j i slot sequence step).staging = s.staging ∧
    (s.issueAppend j i slot sequence step).copyA = s.copyA ∧
    (s.issueAppend j i slot sequence step).copyB = s.copyB ∧
    (s.issueAppend j i slot sequence step).designation = s.designation ∧
    (s.issueAppend j i slot sequence step).configDegraded = s.configDegraded ∧
    (s.issueAppend j i slot sequence step).activationDue = s.activationDue ∧
    (s.issueAppend j i slot sequence step).freeze = s.freeze ∧
    (s.issueAppend j i slot sequence step).deferredFreeze = s.deferredFreeze ∧
    (s.issueAppend j i slot sequence step).held = s.held ∧
    (s.issueAppend j i slot sequence step).pendingRead = s.pendingRead ∧
    (s.issueAppend j i slot sequence step).queue = s.queue ∧
    (s.issueAppend j i slot sequence step).nextAcceptance = s.nextAcceptance ∧
    (s.issueAppend j i slot sequence step).mark = s.mark ∧
    (s.issueAppend j i slot sequence step).frontResponse = s.frontResponse ∧
    (s.issueAppend j i slot sequence step).parked = s.parked ∧
    (s.issueAppend j i slot sequence step).readHeld = s.readHeld ∧
    (s.issueAppend j i slot sequence step).headHeld = s.headHeld ∧
    (s.issueAppend j i slot sequence step).retryCounter = s.retryCounter ∧
    (s.issueAppend j i slot sequence step).response = s.response ∧
    (s.issueAppend j i slot sequence step).linkOut = s.linkOut ∧
    (s.issueAppend j i slot sequence step).completion = s.completion ∧
    (s.issueAppend j i slot sequence step).ckptLatch = s.ckptLatch ∧
    (s.issueAppend j i slot sequence step).log = s.log ∧
    (s.issueAppend j i slot sequence step).dropped = s.dropped ∧
    (s.issueAppend j i slot sequence step).alertMask = s.alertMask ∧
    (s.issueAppend j i slot sequence step).freeCount = s.freeCount := by
  unfold State.issueAppend
  all_goals try dsimp only
  all_goals repeat' split
  all_goals simp

@[simp] theorem State.startAppend_frame (s : State) (j : Job) (i : Nat) :
    (s.startAppend j i).recoveryMark = s.recoveryMark ∧
    (s.startAppend j i).pending = s.pending ∧ (s.startAppend j i).inReset = s.inReset ∧
    (s.startAppend j i).operating = s.operating ∧ (s.startAppend j i).pfw = s.pfw ∧
    (s.startAppend j i).ckptHigh = s.ckptHigh ∧ (s.startAppend j i).mem = s.mem ∧
    (s.startAppend j i).journal = s.journal ∧ (s.startAppend j i).epoch = s.epoch ∧
    (s.startAppend j i).anchorA = s.anchorA ∧ (s.startAppend j i).anchorB = s.anchorB ∧
    (s.startAppend j i).slots = s.slots ∧ (s.startAppend j i).slotHeaders = s.slotHeaders ∧
    (s.startAppend j i).index = s.index ∧ (s.startAppend j i).stack = s.stack ∧
    (s.startAppend j i).longOp = s.longOp ∧ (s.startAppend j i).maint = s.maint ∧
    (s.startAppend j i).active = s.active ∧ (s.startAppend j i).staging = s.staging ∧
    (s.startAppend j i).copyA = s.copyA ∧ (s.startAppend j i).copyB = s.copyB ∧
    (s.startAppend j i).designation = s.designation ∧ (s.startAppend j i).configDegraded = s.configDegraded ∧
    (s.startAppend j i).activationDue = s.activationDue ∧ (s.startAppend j i).freeze = s.freeze ∧
    (s.startAppend j i).deferredFreeze = s.deferredFreeze ∧ (s.startAppend j i).held = s.held ∧
    (s.startAppend j i).pendingRead = s.pendingRead ∧ (s.startAppend j i).queue = s.queue ∧
    (s.startAppend j i).nextAcceptance = s.nextAcceptance ∧ (s.startAppend j i).mark = s.mark ∧
    (s.startAppend j i).frontResponse = s.frontResponse ∧ (s.startAppend j i).parked = s.parked ∧
    (s.startAppend j i).readHeld = s.readHeld ∧ (s.startAppend j i).headHeld = s.headHeld ∧
    (s.startAppend j i).retryCounter = s.retryCounter ∧ (s.startAppend j i).response = s.response ∧
    (s.startAppend j i).linkOut = s.linkOut ∧ (s.startAppend j i).completion = s.completion ∧
    (s.startAppend j i).ckptLatch = s.ckptLatch ∧ (s.startAppend j i).log = s.log ∧
    (s.startAppend j i).dropped = s.dropped ∧ (s.startAppend j i).alertMask = s.alertMask ∧
    (s.startAppend j i).freeCount = s.freeCount := by
  unfold State.startAppend
  all_goals try dsimp only
  all_goals repeat' split
  all_goals simp

@[simp] theorem State.markHead_frame (s : State) (f : Entry → Entry) :
    (s.markHead f).recoveryMark = s.recoveryMark ∧
    (s.markHead f).pending = s.pending ∧ (s.markHead f).inReset = s.inReset ∧
    (s.markHead f).operating = s.operating ∧ (s.markHead f).pfw = s.pfw ∧ (s.markHead f).ckptHigh = s.ckptHigh ∧
    (s.markHead f).mem = s.mem ∧ (s.markHead f).journal = s.journal ∧ (s.markHead f).epoch = s.epoch ∧
    (s.markHead f).anchorA = s.anchorA ∧ (s.markHead f).anchorB = s.anchorB ∧ (s.markHead f).slots = s.slots ∧
    (s.markHead f).slotHeaders = s.slotHeaders ∧ (s.markHead f).index = s.index ∧ (s.markHead f).stack = s.stack ∧
    (s.markHead f).nextSequence = s.nextSequence ∧ (s.markHead f).exhausted = s.exhausted ∧
    (s.markHead f).headerMark = s.headerMark ∧ (s.markHead f).longOp = s.longOp ∧ (s.markHead f).maint = s.maint ∧
    (s.markHead f).active = s.active ∧ (s.markHead f).staging = s.staging ∧ (s.markHead f).copyA = s.copyA ∧
    (s.markHead f).copyB = s.copyB ∧ (s.markHead f).designation = s.designation ∧
    (s.markHead f).configDegraded = s.configDegraded ∧ (s.markHead f).activationDue = s.activationDue ∧
    (s.markHead f).freeze = s.freeze ∧ (s.markHead f).deferredFreeze = s.deferredFreeze ∧
    (s.markHead f).held = s.held ∧ (s.markHead f).pendingRead = s.pendingRead ∧
    (s.markHead f).nextAcceptance = s.nextAcceptance ∧ (s.markHead f).mark = s.mark ∧
    (s.markHead f).frontResponse = s.frontResponse ∧ (s.markHead f).job = s.job ∧
    (s.markHead f).parked = s.parked ∧ (s.markHead f).readHeld = s.readHeld ∧
    (s.markHead f).headHeld = s.headHeld ∧ (s.markHead f).port = s.port ∧ (s.markHead f).waitFront = s.waitFront ∧
    (s.markHead f).waitMaint = s.waitMaint ∧ (s.markHead f).lastServed = s.lastServed ∧
    (s.markHead f).retryCounter = s.retryCounter ∧ (s.markHead f).response = s.response ∧
    (s.markHead f).linkOut = s.linkOut ∧ (s.markHead f).completion = s.completion ∧
    (s.markHead f).ckptLatch = s.ckptLatch ∧ (s.markHead f).log = s.log ∧ (s.markHead f).dropped = s.dropped ∧
    (s.markHead f).alertMask = s.alertMask ∧ (s.markHead f).freeCount = s.freeCount := by
  unfold State.markHead
  all_goals try dsimp only
  all_goals repeat' split
  all_goals simp

@[simp] theorem State.park_frame (s : State) (j : Job) :
    (s.park j).pending = s.pending ∧ (s.park j).inReset = s.inReset ∧ (s.park j).pfw = s.pfw ∧
    (s.park j).ckptHigh = s.ckptHigh ∧ (s.park j).mem = s.mem ∧ (s.park j).epoch = s.epoch ∧
    (s.park j).anchorA = s.anchorA ∧ (s.park j).anchorB = s.anchorB ∧ (s.park j).slots = s.slots ∧
    (s.park j).slotHeaders = s.slotHeaders ∧ (s.park j).index = s.index ∧ (s.park j).stack = s.stack ∧
    (s.park j).nextSequence = s.nextSequence ∧ (s.park j).exhausted = s.exhausted ∧
    (s.park j).headerMark = s.headerMark ∧ (s.park j).active = s.active ∧ (s.park j).staging = s.staging ∧
    (s.park j).copyA = s.copyA ∧ (s.park j).copyB = s.copyB ∧ (s.park j).designation = s.designation ∧
    (s.park j).configDegraded = s.configDegraded ∧ (s.park j).activationDue = s.activationDue ∧
    (s.park j).pendingRead = s.pendingRead ∧ (s.park j).port = s.port ∧ (s.park j).waitFront = s.waitFront ∧
    (s.park j).waitMaint = s.waitMaint ∧ (s.park j).lastServed = s.lastServed ∧
    (s.park j).retryCounter = s.retryCounter ∧ (s.park j).linkOut = s.linkOut ∧
    (s.park j).alertMask = s.alertMask := by
  unfold State.park
  all_goals try dsimp only
  all_goals repeat' split
  all_goals simp

@[simp] theorem State.requestSpace_frame (s : State) (j : Job) :
    (s.requestSpace j).pending = s.pending ∧ (s.requestSpace j).inReset = s.inReset ∧
    (s.requestSpace j).pfw = s.pfw ∧ (s.requestSpace j).ckptHigh = s.ckptHigh ∧ (s.requestSpace j).mem = s.mem ∧
    (s.requestSpace j).epoch = s.epoch ∧ (s.requestSpace j).anchorA = s.anchorA ∧
    (s.requestSpace j).anchorB = s.anchorB ∧ (s.requestSpace j).slots = s.slots ∧
    (s.requestSpace j).slotHeaders = s.slotHeaders ∧ (s.requestSpace j).index = s.index ∧
    (s.requestSpace j).stack = s.stack ∧ (s.requestSpace j).active = s.active ∧
    (s.requestSpace j).staging = s.staging ∧ (s.requestSpace j).copyA = s.copyA ∧
    (s.requestSpace j).copyB = s.copyB ∧ (s.requestSpace j).designation = s.designation ∧
    (s.requestSpace j).configDegraded = s.configDegraded ∧ (s.requestSpace j).activationDue = s.activationDue ∧
    (s.requestSpace j).pendingRead = s.pendingRead ∧ (s.requestSpace j).retryCounter = s.retryCounter ∧
    (s.requestSpace j).linkOut = s.linkOut ∧ (s.requestSpace j).alertMask = s.alertMask := by
  unfold State.requestSpace
  all_goals try dsimp only
  all_goals repeat' split
  all_goals simp

@[simp] theorem State.afterReads_frame (s : State) (j : Job) :
    (s.afterReads j).pending = s.pending ∧ (s.afterReads j).inReset = s.inReset ∧ (s.afterReads j).pfw = s.pfw ∧
    (s.afterReads j).ckptHigh = s.ckptHigh ∧ (s.afterReads j).mem = s.mem ∧ (s.afterReads j).epoch = s.epoch ∧
    (s.afterReads j).anchorA = s.anchorA ∧ (s.afterReads j).anchorB = s.anchorB ∧
    (s.afterReads j).slots = s.slots ∧ (s.afterReads j).slotHeaders = s.slotHeaders ∧
    (s.afterReads j).index = s.index ∧ (s.afterReads j).stack = s.stack ∧ (s.afterReads j).active = s.active ∧
    (s.afterReads j).staging = s.staging ∧ (s.afterReads j).copyA = s.copyA ∧ (s.afterReads j).copyB = s.copyB ∧
    (s.afterReads j).designation = s.designation ∧ (s.afterReads j).configDegraded = s.configDegraded ∧
    (s.afterReads j).activationDue = s.activationDue ∧ (s.afterReads j).pendingRead = s.pendingRead ∧
    (s.afterReads j).retryCounter = s.retryCounter ∧ (s.afterReads j).linkOut = s.linkOut ∧
    (s.afterReads j).alertMask = s.alertMask := by
  unfold State.afterReads
  all_goals try dsimp only
  all_goals repeat' split
  all_goals simp

@[simp] theorem State.startWriteJob_frame (s : State) (j : Job) :
    (s.startWriteJob j).pending = s.pending ∧ (s.startWriteJob j).inReset = s.inReset ∧
    (s.startWriteJob j).pfw = s.pfw ∧ (s.startWriteJob j).ckptHigh = s.ckptHigh ∧
    (s.startWriteJob j).mem = s.mem ∧ (s.startWriteJob j).epoch = s.epoch ∧
    (s.startWriteJob j).anchorA = s.anchorA ∧ (s.startWriteJob j).anchorB = s.anchorB ∧
    (s.startWriteJob j).slots = s.slots ∧ (s.startWriteJob j).slotHeaders = s.slotHeaders ∧
    (s.startWriteJob j).index = s.index ∧ (s.startWriteJob j).stack = s.stack ∧
    (s.startWriteJob j).active = s.active ∧ (s.startWriteJob j).staging = s.staging ∧
    (s.startWriteJob j).copyA = s.copyA ∧ (s.startWriteJob j).copyB = s.copyB ∧
    (s.startWriteJob j).designation = s.designation ∧ (s.startWriteJob j).configDegraded = s.configDegraded ∧
    (s.startWriteJob j).activationDue = s.activationDue ∧ (s.startWriteJob j).pendingRead = s.pendingRead ∧
    (s.startWriteJob j).retryCounter = s.retryCounter ∧ (s.startWriteJob j).linkOut = s.linkOut ∧
    (s.startWriteJob j).alertMask = s.alertMask := by
  unfold State.startWriteJob
  all_goals try dsimp only
  all_goals repeat' split
  all_goals simp

@[simp] theorem State.readJobNext_frame (s : State) (j : Job) (i : Nat) :
    (s.readJobNext j i).recoveryMark = s.recoveryMark ∧
    (s.readJobNext j i).pending = s.pending ∧ (s.readJobNext j i).inReset = s.inReset ∧
    (s.readJobNext j i).operating = s.operating ∧ (s.readJobNext j i).pfw = s.pfw ∧
    (s.readJobNext j i).ckptHigh = s.ckptHigh ∧ (s.readJobNext j i).mem = s.mem ∧
    (s.readJobNext j i).journal = s.journal ∧ (s.readJobNext j i).epoch = s.epoch ∧
    (s.readJobNext j i).anchorA = s.anchorA ∧ (s.readJobNext j i).anchorB = s.anchorB ∧
    (s.readJobNext j i).slots = s.slots ∧ (s.readJobNext j i).slotHeaders = s.slotHeaders ∧
    (s.readJobNext j i).index = s.index ∧ (s.readJobNext j i).stack = s.stack ∧
    (s.readJobNext j i).nextSequence = s.nextSequence ∧ (s.readJobNext j i).exhausted = s.exhausted ∧
    (s.readJobNext j i).headerMark = s.headerMark ∧ (s.readJobNext j i).longOp = s.longOp ∧
    (s.readJobNext j i).maint = s.maint ∧ (s.readJobNext j i).active = s.active ∧
    (s.readJobNext j i).staging = s.staging ∧ (s.readJobNext j i).copyA = s.copyA ∧
    (s.readJobNext j i).copyB = s.copyB ∧ (s.readJobNext j i).designation = s.designation ∧
    (s.readJobNext j i).configDegraded = s.configDegraded ∧ (s.readJobNext j i).activationDue = s.activationDue ∧
    (s.readJobNext j i).freeze = s.freeze ∧ (s.readJobNext j i).deferredFreeze = s.deferredFreeze ∧
    (s.readJobNext j i).held = s.held ∧ (s.readJobNext j i).queue = s.queue ∧
    (s.readJobNext j i).nextAcceptance = s.nextAcceptance ∧ (s.readJobNext j i).mark = s.mark ∧
    (s.readJobNext j i).parked = s.parked ∧ (s.readJobNext j i).headHeld = s.headHeld ∧
    (s.readJobNext j i).retryCounter = s.retryCounter ∧ (s.readJobNext j i).response = s.response ∧
    (s.readJobNext j i).linkOut = s.linkOut ∧ (s.readJobNext j i).completion = s.completion ∧
    (s.readJobNext j i).ckptLatch = s.ckptLatch ∧ (s.readJobNext j i).log = s.log ∧
    (s.readJobNext j i).dropped = s.dropped ∧ (s.readJobNext j i).alertMask = s.alertMask ∧
    (s.readJobNext j i).freeCount = s.freeCount := by
  unfold State.readJobNext
  all_goals try dsimp only
  all_goals repeat' split
  all_goals simp

@[simp] theorem State.readJobRowDone_frame (s : State) (j : Job) (i : Nat) (d : Delivery) :
    (s.readJobRowDone j i d).recoveryMark = s.recoveryMark ∧
    (s.readJobRowDone j i d).pending = s.pending ∧ (s.readJobRowDone j i d).inReset = s.inReset ∧
    (s.readJobRowDone j i d).operating = s.operating ∧ (s.readJobRowDone j i d).pfw = s.pfw ∧
    (s.readJobRowDone j i d).ckptHigh = s.ckptHigh ∧ (s.readJobRowDone j i d).mem = s.mem ∧
    (s.readJobRowDone j i d).journal = s.journal ∧ (s.readJobRowDone j i d).epoch = s.epoch ∧
    (s.readJobRowDone j i d).anchorA = s.anchorA ∧ (s.readJobRowDone j i d).anchorB = s.anchorB ∧
    (s.readJobRowDone j i d).slots = s.slots ∧ (s.readJobRowDone j i d).slotHeaders = s.slotHeaders ∧
    (s.readJobRowDone j i d).index = s.index ∧ (s.readJobRowDone j i d).stack = s.stack ∧
    (s.readJobRowDone j i d).nextSequence = s.nextSequence ∧ (s.readJobRowDone j i d).exhausted = s.exhausted ∧
    (s.readJobRowDone j i d).headerMark = s.headerMark ∧ (s.readJobRowDone j i d).longOp = s.longOp ∧
    (s.readJobRowDone j i d).maint = s.maint ∧ (s.readJobRowDone j i d).active = s.active ∧
    (s.readJobRowDone j i d).staging = s.staging ∧ (s.readJobRowDone j i d).copyA = s.copyA ∧
    (s.readJobRowDone j i d).copyB = s.copyB ∧ (s.readJobRowDone j i d).designation = s.designation ∧
    (s.readJobRowDone j i d).configDegraded = s.configDegraded ∧
    (s.readJobRowDone j i d).activationDue = s.activationDue ∧ (s.readJobRowDone j i d).freeze = s.freeze ∧
    (s.readJobRowDone j i d).deferredFreeze = s.deferredFreeze ∧ (s.readJobRowDone j i d).held = s.held ∧
    (s.readJobRowDone j i d).queue = s.queue ∧ (s.readJobRowDone j i d).nextAcceptance = s.nextAcceptance ∧
    (s.readJobRowDone j i d).mark = s.mark ∧ (s.readJobRowDone j i d).parked = s.parked ∧
    (s.readJobRowDone j i d).headHeld = s.headHeld ∧ (s.readJobRowDone j i d).retryCounter = s.retryCounter ∧
    (s.readJobRowDone j i d).response = s.response ∧ (s.readJobRowDone j i d).linkOut = s.linkOut ∧
    (s.readJobRowDone j i d).completion = s.completion ∧ (s.readJobRowDone j i d).ckptLatch = s.ckptLatch ∧
    (s.readJobRowDone j i d).alertMask = s.alertMask ∧ (s.readJobRowDone j i d).freeCount = s.freeCount := by
  unfold State.readJobRowDone
  all_goals try dsimp only
  all_goals repeat' split
  all_goals simp

@[simp] theorem State.writeJobNext_frame (s : State) (j : Job) (i : Nat) :
    (s.writeJobNext j i).pending = s.pending ∧ (s.writeJobNext j i).inReset = s.inReset ∧
    (s.writeJobNext j i).pfw = s.pfw ∧ (s.writeJobNext j i).ckptHigh = s.ckptHigh ∧
    (s.writeJobNext j i).mem = s.mem ∧ (s.writeJobNext j i).epoch = s.epoch ∧
    (s.writeJobNext j i).anchorA = s.anchorA ∧ (s.writeJobNext j i).anchorB = s.anchorB ∧
    (s.writeJobNext j i).slots = s.slots ∧ (s.writeJobNext j i).slotHeaders = s.slotHeaders ∧
    (s.writeJobNext j i).index = s.index ∧ (s.writeJobNext j i).stack = s.stack ∧
    (s.writeJobNext j i).active = s.active ∧ (s.writeJobNext j i).staging = s.staging ∧
    (s.writeJobNext j i).copyA = s.copyA ∧ (s.writeJobNext j i).copyB = s.copyB ∧
    (s.writeJobNext j i).designation = s.designation ∧ (s.writeJobNext j i).configDegraded = s.configDegraded ∧
    (s.writeJobNext j i).activationDue = s.activationDue ∧ (s.writeJobNext j i).pendingRead = s.pendingRead ∧
    (s.writeJobNext j i).retryCounter = s.retryCounter ∧ (s.writeJobNext j i).linkOut = s.linkOut ∧
    (s.writeJobNext j i).alertMask = s.alertMask := by
  unfold State.writeJobNext
  all_goals try dsimp only
  all_goals repeat' split
  all_goals simp

@[simp] theorem State.writeJobRowDone_frame (s : State) (j : Job) (i : Nat) (d : Delivery) :
    (s.writeJobRowDone j i d).pending = s.pending ∧ (s.writeJobRowDone j i d).inReset = s.inReset ∧
    (s.writeJobRowDone j i d).pfw = s.pfw ∧ (s.writeJobRowDone j i d).ckptHigh = s.ckptHigh ∧
    (s.writeJobRowDone j i d).mem = s.mem ∧ (s.writeJobRowDone j i d).epoch = s.epoch ∧
    (s.writeJobRowDone j i d).anchorA = s.anchorA ∧ (s.writeJobRowDone j i d).anchorB = s.anchorB ∧
    (s.writeJobRowDone j i d).slots = s.slots ∧ (s.writeJobRowDone j i d).slotHeaders = s.slotHeaders ∧
    (s.writeJobRowDone j i d).index = s.index ∧ (s.writeJobRowDone j i d).stack = s.stack ∧
    (s.writeJobRowDone j i d).active = s.active ∧ (s.writeJobRowDone j i d).staging = s.staging ∧
    (s.writeJobRowDone j i d).copyA = s.copyA ∧ (s.writeJobRowDone j i d).copyB = s.copyB ∧
    (s.writeJobRowDone j i d).designation = s.designation ∧
    (s.writeJobRowDone j i d).configDegraded = s.configDegraded ∧
    (s.writeJobRowDone j i d).activationDue = s.activationDue ∧
    (s.writeJobRowDone j i d).pendingRead = s.pendingRead ∧
    (s.writeJobRowDone j i d).retryCounter = s.retryCounter ∧ (s.writeJobRowDone j i d).linkOut = s.linkOut ∧
    (s.writeJobRowDone j i d).alertMask = s.alertMask := by
  unfold State.writeJobRowDone
  all_goals try dsimp only
  all_goals repeat' split
  all_goals simp

@[simp] theorem State.appendDone_frame (s : State) (j : Job) (i slot : Nat) (sequence : Word) (step : AppendStep) (d : Delivery) :
    (s.appendDone j i slot sequence step d).recoveryMark = s.recoveryMark ∧
    (s.appendDone j i slot sequence step d).pending = s.pending ∧
    (s.appendDone j i slot sequence step d).inReset = s.inReset ∧
    (s.appendDone j i slot sequence step d).operating = s.operating ∧
    (s.appendDone j i slot sequence step d).pfw = s.pfw ∧
    (s.appendDone j i slot sequence step d).ckptHigh = s.ckptHigh ∧
    (s.appendDone j i slot sequence step d).mem = s.mem ∧
    (s.appendDone j i slot sequence step d).journal = s.journal ∧
    (s.appendDone j i slot sequence step d).epoch = s.epoch ∧
    (s.appendDone j i slot sequence step d).anchorA = s.anchorA ∧
    (s.appendDone j i slot sequence step d).anchorB = s.anchorB ∧
    (s.appendDone j i slot sequence step d).stack = s.stack ∧
    (s.appendDone j i slot sequence step d).longOp = s.longOp ∧
    (s.appendDone j i slot sequence step d).maint = s.maint ∧
    (s.appendDone j i slot sequence step d).active = s.active ∧
    (s.appendDone j i slot sequence step d).staging = s.staging ∧
    (s.appendDone j i slot sequence step d).copyA = s.copyA ∧
    (s.appendDone j i slot sequence step d).copyB = s.copyB ∧
    (s.appendDone j i slot sequence step d).designation = s.designation ∧
    (s.appendDone j i slot sequence step d).configDegraded = s.configDegraded ∧
    (s.appendDone j i slot sequence step d).activationDue = s.activationDue ∧
    (s.appendDone j i slot sequence step d).pendingRead = s.pendingRead ∧
    (s.appendDone j i slot sequence step d).mark = s.mark ∧
    (s.appendDone j i slot sequence step d).parked = s.parked ∧
    (s.appendDone j i slot sequence step d).readHeld = s.readHeld ∧
    (s.appendDone j i slot sequence step d).retryCounter = s.retryCounter ∧
    (s.appendDone j i slot sequence step d).linkOut = s.linkOut ∧
    (s.appendDone j i slot sequence step d).completion = s.completion ∧
    (s.appendDone j i slot sequence step d).ckptLatch = s.ckptLatch ∧
    (s.appendDone j i slot sequence step d).alertMask = s.alertMask ∧
    (s.appendDone j i slot sequence step d).freeCount = s.freeCount := by
  unfold State.appendDone
  all_goals try dsimp only
  all_goals repeat' split
  all_goals simp

@[simp] theorem State.targetDone_frame (s : State) (j : Job) (i : Nat) (d : Delivery) :
    (s.targetDone j i d).recoveryMark = s.recoveryMark ∧
    (s.targetDone j i d).pending = s.pending ∧ (s.targetDone j i d).inReset = s.inReset ∧
    (s.targetDone j i d).operating = s.operating ∧ (s.targetDone j i d).pfw = s.pfw ∧
    (s.targetDone j i d).ckptHigh = s.ckptHigh ∧ (s.targetDone j i d).mem = s.mem ∧
    (s.targetDone j i d).journal = s.journal ∧ (s.targetDone j i d).epoch = s.epoch ∧
    (s.targetDone j i d).anchorA = s.anchorA ∧ (s.targetDone j i d).anchorB = s.anchorB ∧
    (s.targetDone j i d).slots = s.slots ∧ (s.targetDone j i d).slotHeaders = s.slotHeaders ∧
    (s.targetDone j i d).index = s.index ∧ (s.targetDone j i d).stack = s.stack ∧
    (s.targetDone j i d).nextSequence = s.nextSequence ∧ (s.targetDone j i d).exhausted = s.exhausted ∧
    (s.targetDone j i d).headerMark = s.headerMark ∧ (s.targetDone j i d).longOp = s.longOp ∧
    (s.targetDone j i d).maint = s.maint ∧ (s.targetDone j i d).active = s.active ∧
    (s.targetDone j i d).staging = s.staging ∧ (s.targetDone j i d).copyA = s.copyA ∧
    (s.targetDone j i d).copyB = s.copyB ∧ (s.targetDone j i d).designation = s.designation ∧
    (s.targetDone j i d).configDegraded = s.configDegraded ∧
    (s.targetDone j i d).activationDue = s.activationDue ∧ (s.targetDone j i d).pendingRead = s.pendingRead ∧
    (s.targetDone j i d).mark = s.mark ∧ (s.targetDone j i d).parked = s.parked ∧
    (s.targetDone j i d).readHeld = s.readHeld ∧ (s.targetDone j i d).retryCounter = s.retryCounter ∧
    (s.targetDone j i d).linkOut = s.linkOut ∧ (s.targetDone j i d).completion = s.completion ∧
    (s.targetDone j i d).ckptLatch = s.ckptLatch ∧ (s.targetDone j i d).alertMask = s.alertMask ∧
    (s.targetDone j i d).freeCount = s.freeCount := by
  unfold State.targetDone
  all_goals try dsimp only
  all_goals repeat' split
  all_goals simp

@[simp] theorem State.deliverFront_frame (s : State) (d : Delivery) :
    (s.deliverFront d).pending = s.pending ∧ (s.deliverFront d).inReset = s.inReset ∧
    (s.deliverFront d).pfw = s.pfw ∧ (s.deliverFront d).ckptHigh = s.ckptHigh ∧ (s.deliverFront d).mem = s.mem ∧
    (s.deliverFront d).epoch = s.epoch ∧ (s.deliverFront d).anchorA = s.anchorA ∧
    (s.deliverFront d).anchorB = s.anchorB ∧ (s.deliverFront d).stack = s.stack ∧
    (s.deliverFront d).active = s.active ∧ (s.deliverFront d).staging = s.staging ∧
    (s.deliverFront d).copyA = s.copyA ∧ (s.deliverFront d).copyB = s.copyB ∧
    (s.deliverFront d).designation = s.designation ∧ (s.deliverFront d).configDegraded = s.configDegraded ∧
    (s.deliverFront d).activationDue = s.activationDue ∧ (s.deliverFront d).retryCounter = s.retryCounter ∧
    (s.deliverFront d).linkOut = s.linkOut ∧ (s.deliverFront d).alertMask = s.alertMask := by
  unfold State.deliverFront
  all_goals try dsimp only
  all_goals repeat' split
  all_goals simp

@[simp] theorem State.examineRead_frame (s : State) (p : PendingRead) :
    (s.examineRead p).recoveryMark = s.recoveryMark ∧
    (s.examineRead p).pending = s.pending ∧ (s.examineRead p).inReset = s.inReset ∧
    (s.examineRead p).operating = s.operating ∧ (s.examineRead p).pfw = s.pfw ∧
    (s.examineRead p).ckptHigh = s.ckptHigh ∧ (s.examineRead p).mem = s.mem ∧
    (s.examineRead p).journal = s.journal ∧ (s.examineRead p).epoch = s.epoch ∧
    (s.examineRead p).anchorA = s.anchorA ∧ (s.examineRead p).anchorB = s.anchorB ∧
    (s.examineRead p).slots = s.slots ∧ (s.examineRead p).slotHeaders = s.slotHeaders ∧
    (s.examineRead p).index = s.index ∧ (s.examineRead p).stack = s.stack ∧
    (s.examineRead p).nextSequence = s.nextSequence ∧ (s.examineRead p).exhausted = s.exhausted ∧
    (s.examineRead p).headerMark = s.headerMark ∧ (s.examineRead p).longOp = s.longOp ∧
    (s.examineRead p).maint = s.maint ∧ (s.examineRead p).active = s.active ∧
    (s.examineRead p).staging = s.staging ∧ (s.examineRead p).copyA = s.copyA ∧
    (s.examineRead p).copyB = s.copyB ∧ (s.examineRead p).designation = s.designation ∧
    (s.examineRead p).configDegraded = s.configDegraded ∧ (s.examineRead p).activationDue = s.activationDue ∧
    (s.examineRead p).freeze = s.freeze ∧ (s.examineRead p).deferredFreeze = s.deferredFreeze ∧
    (s.examineRead p).held = s.held ∧ (s.examineRead p).queue = s.queue ∧
    (s.examineRead p).nextAcceptance = s.nextAcceptance ∧ (s.examineRead p).mark = s.mark ∧
    (s.examineRead p).parked = s.parked ∧ (s.examineRead p).headHeld = s.headHeld ∧
    (s.examineRead p).retryCounter = s.retryCounter ∧ (s.examineRead p).response = s.response ∧
    (s.examineRead p).linkOut = s.linkOut ∧ (s.examineRead p).completion = s.completion ∧
    (s.examineRead p).ckptLatch = s.ckptLatch ∧ (s.examineRead p).alertMask = s.alertMask ∧
    (s.examineRead p).freeCount = s.freeCount := by
  unfold State.examineRead
  all_goals try dsimp only
  all_goals repeat' split
  all_goals simp

@[simp] theorem State.takeHead_frame (s : State) :
    (s.takeHead).recoveryMark = s.recoveryMark ∧
    (s.takeHead).pending = s.pending ∧ (s.takeHead).inReset = s.inReset ∧ (s.takeHead).operating = s.operating ∧
    (s.takeHead).pfw = s.pfw ∧ (s.takeHead).ckptHigh = s.ckptHigh ∧ (s.takeHead).mem = s.mem ∧
    (s.takeHead).journal = s.journal ∧ (s.takeHead).epoch = s.epoch ∧ (s.takeHead).anchorA = s.anchorA ∧
    (s.takeHead).anchorB = s.anchorB ∧ (s.takeHead).slots = s.slots ∧ (s.takeHead).slotHeaders = s.slotHeaders ∧
    (s.takeHead).index = s.index ∧ (s.takeHead).stack = s.stack ∧ (s.takeHead).nextSequence = s.nextSequence ∧
    (s.takeHead).exhausted = s.exhausted ∧ (s.takeHead).headerMark = s.headerMark ∧
    (s.takeHead).longOp = s.longOp ∧ (s.takeHead).maint = s.maint ∧ (s.takeHead).active = s.active ∧
    (s.takeHead).staging = s.staging ∧ (s.takeHead).copyA = s.copyA ∧ (s.takeHead).copyB = s.copyB ∧
    (s.takeHead).designation = s.designation ∧ (s.takeHead).configDegraded = s.configDegraded ∧
    (s.takeHead).activationDue = s.activationDue ∧ (s.takeHead).freeze = s.freeze ∧
    (s.takeHead).deferredFreeze = s.deferredFreeze ∧ (s.takeHead).held = s.held ∧
    (s.takeHead).pendingRead = s.pendingRead ∧ (s.takeHead).nextAcceptance = s.nextAcceptance ∧
    (s.takeHead).mark = s.mark ∧ (s.takeHead).frontResponse = s.frontResponse ∧ (s.takeHead).job = s.job ∧
    (s.takeHead).parked = s.parked ∧ (s.takeHead).readHeld = s.readHeld ∧ (s.takeHead).headHeld = s.headHeld ∧
    (s.takeHead).port = s.port ∧ (s.takeHead).waitFront = s.waitFront ∧ (s.takeHead).waitMaint = s.waitMaint ∧
    (s.takeHead).lastServed = s.lastServed ∧ (s.takeHead).retryCounter = s.retryCounter ∧
    (s.takeHead).response = s.response ∧ (s.takeHead).linkOut = s.linkOut ∧
    (s.takeHead).completion = s.completion ∧ (s.takeHead).ckptLatch = s.ckptLatch ∧ (s.takeHead).log = s.log ∧
    (s.takeHead).dropped = s.dropped ∧ (s.takeHead).alertMask = s.alertMask ∧
    (s.takeHead).freeCount = s.freeCount := by
  unfold State.takeHead
  all_goals try dsimp only
  all_goals repeat' split
  all_goals simp

@[simp] theorem State.examineHead_frame (s : State) (e : Entry) :
    (s.examineHead e).pending = s.pending ∧ (s.examineHead e).inReset = s.inReset ∧
    (s.examineHead e).pfw = s.pfw ∧ (s.examineHead e).ckptHigh = s.ckptHigh ∧ (s.examineHead e).mem = s.mem ∧
    (s.examineHead e).epoch = s.epoch ∧ (s.examineHead e).anchorA = s.anchorA ∧
    (s.examineHead e).anchorB = s.anchorB ∧ (s.examineHead e).slots = s.slots ∧
    (s.examineHead e).slotHeaders = s.slotHeaders ∧ (s.examineHead e).index = s.index ∧
    (s.examineHead e).stack = s.stack ∧ (s.examineHead e).active = s.active ∧
    (s.examineHead e).staging = s.staging ∧ (s.examineHead e).copyA = s.copyA ∧
    (s.examineHead e).copyB = s.copyB ∧ (s.examineHead e).designation = s.designation ∧
    (s.examineHead e).configDegraded = s.configDegraded ∧ (s.examineHead e).activationDue = s.activationDue ∧
    (s.examineHead e).pendingRead = s.pendingRead ∧ (s.examineHead e).retryCounter = s.retryCounter ∧
    (s.examineHead e).linkOut = s.linkOut ∧ (s.examineHead e).alertMask = s.alertMask := by
  unfold State.examineHead
  all_goals try dsimp only
  all_goals repeat' split
  all_goals simp

@[simp] theorem State.examineOfferedHead_frame (s : State) :
    (s.examineOfferedHead).pending = s.pending ∧ (s.examineOfferedHead).inReset = s.inReset ∧
    (s.examineOfferedHead).pfw = s.pfw ∧ (s.examineOfferedHead).ckptHigh = s.ckptHigh ∧
    (s.examineOfferedHead).mem = s.mem ∧ (s.examineOfferedHead).epoch = s.epoch ∧
    (s.examineOfferedHead).anchorA = s.anchorA ∧ (s.examineOfferedHead).anchorB = s.anchorB ∧
    (s.examineOfferedHead).slots = s.slots ∧ (s.examineOfferedHead).slotHeaders = s.slotHeaders ∧
    (s.examineOfferedHead).index = s.index ∧ (s.examineOfferedHead).stack = s.stack ∧
    (s.examineOfferedHead).active = s.active ∧ (s.examineOfferedHead).staging = s.staging ∧
    (s.examineOfferedHead).copyA = s.copyA ∧ (s.examineOfferedHead).copyB = s.copyB ∧
    (s.examineOfferedHead).designation = s.designation ∧
    (s.examineOfferedHead).configDegraded = s.configDegraded ∧
    (s.examineOfferedHead).activationDue = s.activationDue ∧ (s.examineOfferedHead).pendingRead = s.pendingRead ∧
    (s.examineOfferedHead).retryCounter = s.retryCounter ∧ (s.examineOfferedHead).linkOut = s.linkOut ∧
    (s.examineOfferedHead).alertMask = s.alertMask := by
  unfold State.examineOfferedHead
  all_goals try dsimp only
  all_goals repeat' split
  all_goals simp

@[simp] theorem State.examine_frame (s : State) :
    (s.examine).pending = s.pending ∧ (s.examine).inReset = s.inReset ∧ (s.examine).pfw = s.pfw ∧
    (s.examine).ckptHigh = s.ckptHigh ∧ (s.examine).mem = s.mem ∧ (s.examine).epoch = s.epoch ∧
    (s.examine).anchorA = s.anchorA ∧ (s.examine).anchorB = s.anchorB ∧ (s.examine).slots = s.slots ∧
    (s.examine).slotHeaders = s.slotHeaders ∧ (s.examine).index = s.index ∧ (s.examine).stack = s.stack ∧
    (s.examine).active = s.active ∧ (s.examine).staging = s.staging ∧ (s.examine).copyA = s.copyA ∧
    (s.examine).copyB = s.copyB ∧ (s.examine).designation = s.designation ∧
    (s.examine).configDegraded = s.configDegraded ∧ (s.examine).activationDue = s.activationDue ∧
    (s.examine).retryCounter = s.retryCounter ∧ (s.examine).linkOut = s.linkOut ∧
    (s.examine).alertMask = s.alertMask := by
  unfold State.examine
  all_goals try dsimp only
  all_goals repeat' split
  all_goals simp

@[simp] theorem State.deliverMaint_frame (s : State) (d : Delivery) :
    (s.deliverMaint d).pending = s.pending ∧ (s.deliverMaint d).inReset = s.inReset ∧
    (s.deliverMaint d).pfw = s.pfw ∧ (s.deliverMaint d).ckptHigh = s.ckptHigh ∧ (s.deliverMaint d).mem = s.mem ∧
    (s.deliverMaint d).freeze = s.freeze ∧ (s.deliverMaint d).deferredFreeze = s.deferredFreeze ∧
    (s.deliverMaint d).job = s.job ∧ (s.deliverMaint d).retryCounter = s.retryCounter ∧
    (s.deliverMaint d).response = s.response ∧ (s.deliverMaint d).linkOut = s.linkOut := by
  unfold State.deliverMaint
  all_goals try dsimp only
  all_goals repeat' split
  all_goals simp

@[simp] theorem State.deliver_frame (s : State) (r : Requester) (d : Delivery) :
    (s.deliver r d).pending = s.pending ∧ (s.deliver r d).inReset = s.inReset ∧ (s.deliver r d).pfw = s.pfw ∧
    (s.deliver r d).ckptHigh = s.ckptHigh ∧ (s.deliver r d).mem = s.mem ∧
    (s.deliver r d).retryCounter = s.retryCounter ∧ (s.deliver r d).linkOut = s.linkOut := by
  unfold State.deliver
  all_goals try dsimp only
  all_goals repeat' split
  all_goals simp

@[simp] theorem State.finishOperation_frame (s : State) (f : Flight) (d : Delivery) :
    (s.finishOperation f d).pending = s.pending ∧ (s.finishOperation f d).inReset = s.inReset ∧
    (s.finishOperation f d).pfw = s.pfw ∧ (s.finishOperation f d).ckptHigh = s.ckptHigh ∧
    (s.finishOperation f d).mem = s.mem ∧ (s.finishOperation f d).retryCounter = s.retryCounter ∧
    (s.finishOperation f d).linkOut = s.linkOut := by
  unfold State.finishOperation
  all_goals try dsimp only
  all_goals repeat' split
  all_goals simp

@[simp] theorem State.attemptFailed_frame (s : State) (f : Flight) (kind : MemFault) :
    (s.attemptFailed f kind).pending = s.pending ∧ (s.attemptFailed f kind).inReset = s.inReset ∧
    (s.attemptFailed f kind).pfw = s.pfw ∧ (s.attemptFailed f kind).ckptHigh = s.ckptHigh ∧
    (s.attemptFailed f kind).mem = s.mem ∧ (s.attemptFailed f kind).linkOut = s.linkOut := by
  unfold State.attemptFailed
  all_goals try dsimp only
  all_goals repeat' split
  all_goals simp

@[simp] theorem State.leaveResidue_frame (s : State) (op : RowOp) (left : Residue) :
    (s.leaveResidue op left).recoveryMark = s.recoveryMark ∧
    (s.leaveResidue op left).pending = s.pending ∧ (s.leaveResidue op left).inReset = s.inReset ∧
    (s.leaveResidue op left).operating = s.operating ∧ (s.leaveResidue op left).pfw = s.pfw ∧
    (s.leaveResidue op left).ckptHigh = s.ckptHigh ∧ (s.leaveResidue op left).journal = s.journal ∧
    (s.leaveResidue op left).epoch = s.epoch ∧ (s.leaveResidue op left).anchorA = s.anchorA ∧
    (s.leaveResidue op left).anchorB = s.anchorB ∧ (s.leaveResidue op left).slots = s.slots ∧
    (s.leaveResidue op left).slotHeaders = s.slotHeaders ∧ (s.leaveResidue op left).index = s.index ∧
    (s.leaveResidue op left).stack = s.stack ∧ (s.leaveResidue op left).nextSequence = s.nextSequence ∧
    (s.leaveResidue op left).exhausted = s.exhausted ∧ (s.leaveResidue op left).headerMark = s.headerMark ∧
    (s.leaveResidue op left).longOp = s.longOp ∧ (s.leaveResidue op left).maint = s.maint ∧
    (s.leaveResidue op left).active = s.active ∧ (s.leaveResidue op left).staging = s.staging ∧
    (s.leaveResidue op left).copyA = s.copyA ∧ (s.leaveResidue op left).copyB = s.copyB ∧
    (s.leaveResidue op left).designation = s.designation ∧
    (s.leaveResidue op left).configDegraded = s.configDegraded ∧
    (s.leaveResidue op left).activationDue = s.activationDue ∧ (s.leaveResidue op left).freeze = s.freeze ∧
    (s.leaveResidue op left).deferredFreeze = s.deferredFreeze ∧ (s.leaveResidue op left).held = s.held ∧
    (s.leaveResidue op left).pendingRead = s.pendingRead ∧ (s.leaveResidue op left).queue = s.queue ∧
    (s.leaveResidue op left).nextAcceptance = s.nextAcceptance ∧ (s.leaveResidue op left).mark = s.mark ∧
    (s.leaveResidue op left).frontResponse = s.frontResponse ∧ (s.leaveResidue op left).job = s.job ∧
    (s.leaveResidue op left).parked = s.parked ∧ (s.leaveResidue op left).readHeld = s.readHeld ∧
    (s.leaveResidue op left).headHeld = s.headHeld ∧ (s.leaveResidue op left).port = s.port ∧
    (s.leaveResidue op left).waitFront = s.waitFront ∧ (s.leaveResidue op left).waitMaint = s.waitMaint ∧
    (s.leaveResidue op left).lastServed = s.lastServed ∧ (s.leaveResidue op left).retryCounter = s.retryCounter ∧
    (s.leaveResidue op left).response = s.response ∧ (s.leaveResidue op left).linkOut = s.linkOut ∧
    (s.leaveResidue op left).completion = s.completion ∧ (s.leaveResidue op left).ckptLatch = s.ckptLatch ∧
    (s.leaveResidue op left).log = s.log ∧ (s.leaveResidue op left).dropped = s.dropped ∧
    (s.leaveResidue op left).alertMask = s.alertMask ∧ (s.leaveResidue op left).freeCount = s.freeCount := by
  unfold State.leaveResidue
  all_goals try dsimp only
  all_goals repeat' split
  all_goals simp

@[simp] theorem State.respond_frame (s : State) (clocked : Nat) (status : Status) (payload : List Byte) :
    (s.respond clocked status payload).recoveryMark = s.recoveryMark ∧
    (s.respond clocked status payload).pending = s.pending ∧
    (s.respond clocked status payload).inReset = s.inReset ∧
    (s.respond clocked status payload).operating = s.operating ∧ (s.respond clocked status payload).pfw = s.pfw ∧
    (s.respond clocked status payload).ckptHigh = s.ckptHigh ∧ (s.respond clocked status payload).mem = s.mem ∧
    (s.respond clocked status payload).journal = s.journal ∧ (s.respond clocked status payload).epoch = s.epoch ∧
    (s.respond clocked status payload).anchorA = s.anchorA ∧
    (s.respond clocked status payload).anchorB = s.anchorB ∧ (s.respond clocked status payload).slots = s.slots ∧
    (s.respond clocked status payload).slotHeaders = s.slotHeaders ∧
    (s.respond clocked status payload).index = s.index ∧ (s.respond clocked status payload).stack = s.stack ∧
    (s.respond clocked status payload).nextSequence = s.nextSequence ∧
    (s.respond clocked status payload).exhausted = s.exhausted ∧
    (s.respond clocked status payload).headerMark = s.headerMark ∧
    (s.respond clocked status payload).longOp = s.longOp ∧ (s.respond clocked status payload).maint = s.maint ∧
    (s.respond clocked status payload).active = s.active ∧
    (s.respond clocked status payload).staging = s.staging ∧ (s.respond clocked status payload).copyA = s.copyA ∧
    (s.respond clocked status payload).copyB = s.copyB ∧
    (s.respond clocked status payload).designation = s.designation ∧
    (s.respond clocked status payload).configDegraded = s.configDegraded ∧
    (s.respond clocked status payload).activationDue = s.activationDue ∧
    (s.respond clocked status payload).freeze = s.freeze ∧
    (s.respond clocked status payload).deferredFreeze = s.deferredFreeze ∧
    (s.respond clocked status payload).held = s.held ∧
    (s.respond clocked status payload).pendingRead = s.pendingRead ∧
    (s.respond clocked status payload).queue = s.queue ∧
    (s.respond clocked status payload).nextAcceptance = s.nextAcceptance ∧
    (s.respond clocked status payload).mark = s.mark ∧
    (s.respond clocked status payload).frontResponse = s.frontResponse ∧
    (s.respond clocked status payload).job = s.job ∧ (s.respond clocked status payload).parked = s.parked ∧
    (s.respond clocked status payload).readHeld = s.readHeld ∧
    (s.respond clocked status payload).headHeld = s.headHeld ∧ (s.respond clocked status payload).port = s.port ∧
    (s.respond clocked status payload).waitFront = s.waitFront ∧
    (s.respond clocked status payload).waitMaint = s.waitMaint ∧
    (s.respond clocked status payload).lastServed = s.lastServed ∧
    (s.respond clocked status payload).retryCounter = s.retryCounter ∧
    (s.respond clocked status payload).completion = s.completion ∧
    (s.respond clocked status payload).ckptLatch = s.ckptLatch ∧ (s.respond clocked status payload).log = s.log ∧
    (s.respond clocked status payload).dropped = s.dropped ∧
    (s.respond clocked status payload).alertMask = s.alertMask ∧
    (s.respond clocked status payload).freeCount = s.freeCount := by
  unfold State.respond
  all_goals try dsimp only
  all_goals repeat' split
  all_goals simp

@[simp] theorem State.respondRefused_frame (s : State) (clocked : Nat) (reason : Reason) :
    (s.respondRefused clocked reason).recoveryMark = s.recoveryMark ∧
    (s.respondRefused clocked reason).pending = s.pending ∧
    (s.respondRefused clocked reason).inReset = s.inReset ∧
    (s.respondRefused clocked reason).operating = s.operating ∧ (s.respondRefused clocked reason).pfw = s.pfw ∧
    (s.respondRefused clocked reason).ckptHigh = s.ckptHigh ∧ (s.respondRefused clocked reason).mem = s.mem ∧
    (s.respondRefused clocked reason).journal = s.journal ∧ (s.respondRefused clocked reason).epoch = s.epoch ∧
    (s.respondRefused clocked reason).anchorA = s.anchorA ∧
    (s.respondRefused clocked reason).anchorB = s.anchorB ∧ (s.respondRefused clocked reason).slots = s.slots ∧
    (s.respondRefused clocked reason).slotHeaders = s.slotHeaders ∧
    (s.respondRefused clocked reason).index = s.index ∧ (s.respondRefused clocked reason).stack = s.stack ∧
    (s.respondRefused clocked reason).nextSequence = s.nextSequence ∧
    (s.respondRefused clocked reason).exhausted = s.exhausted ∧
    (s.respondRefused clocked reason).headerMark = s.headerMark ∧
    (s.respondRefused clocked reason).longOp = s.longOp ∧ (s.respondRefused clocked reason).maint = s.maint ∧
    (s.respondRefused clocked reason).active = s.active ∧ (s.respondRefused clocked reason).staging = s.staging ∧
    (s.respondRefused clocked reason).copyA = s.copyA ∧ (s.respondRefused clocked reason).copyB = s.copyB ∧
    (s.respondRefused clocked reason).designation = s.designation ∧
    (s.respondRefused clocked reason).configDegraded = s.configDegraded ∧
    (s.respondRefused clocked reason).activationDue = s.activationDue ∧
    (s.respondRefused clocked reason).freeze = s.freeze ∧
    (s.respondRefused clocked reason).deferredFreeze = s.deferredFreeze ∧
    (s.respondRefused clocked reason).held = s.held ∧
    (s.respondRefused clocked reason).pendingRead = s.pendingRead ∧
    (s.respondRefused clocked reason).queue = s.queue ∧
    (s.respondRefused clocked reason).nextAcceptance = s.nextAcceptance ∧
    (s.respondRefused clocked reason).mark = s.mark ∧
    (s.respondRefused clocked reason).frontResponse = s.frontResponse ∧
    (s.respondRefused clocked reason).job = s.job ∧ (s.respondRefused clocked reason).parked = s.parked ∧
    (s.respondRefused clocked reason).readHeld = s.readHeld ∧
    (s.respondRefused clocked reason).headHeld = s.headHeld ∧ (s.respondRefused clocked reason).port = s.port ∧
    (s.respondRefused clocked reason).waitFront = s.waitFront ∧
    (s.respondRefused clocked reason).waitMaint = s.waitMaint ∧
    (s.respondRefused clocked reason).lastServed = s.lastServed ∧
    (s.respondRefused clocked reason).retryCounter = s.retryCounter ∧
    (s.respondRefused clocked reason).completion = s.completion ∧
    (s.respondRefused clocked reason).ckptLatch = s.ckptLatch ∧ (s.respondRefused clocked reason).log = s.log ∧
    (s.respondRefused clocked reason).dropped = s.dropped ∧
    (s.respondRefused clocked reason).alertMask = s.alertMask ∧
    (s.respondRefused clocked reason).freeCount = s.freeCount := by
  unfold State.respondRefused
  all_goals try dsimp only
  all_goals repeat' split
  all_goals simp

@[simp] theorem State.respondOk_frame (s : State) (clocked : Nat) (payload : List Byte) :
    (s.respondOk clocked payload).recoveryMark = s.recoveryMark ∧
    (s.respondOk clocked payload).pending = s.pending ∧ (s.respondOk clocked payload).inReset = s.inReset ∧
    (s.respondOk clocked payload).operating = s.operating ∧ (s.respondOk clocked payload).pfw = s.pfw ∧
    (s.respondOk clocked payload).ckptHigh = s.ckptHigh ∧ (s.respondOk clocked payload).mem = s.mem ∧
    (s.respondOk clocked payload).journal = s.journal ∧ (s.respondOk clocked payload).epoch = s.epoch ∧
    (s.respondOk clocked payload).anchorA = s.anchorA ∧ (s.respondOk clocked payload).anchorB = s.anchorB ∧
    (s.respondOk clocked payload).slots = s.slots ∧ (s.respondOk clocked payload).slotHeaders = s.slotHeaders ∧
    (s.respondOk clocked payload).index = s.index ∧ (s.respondOk clocked payload).stack = s.stack ∧
    (s.respondOk clocked payload).nextSequence = s.nextSequence ∧
    (s.respondOk clocked payload).exhausted = s.exhausted ∧
    (s.respondOk clocked payload).headerMark = s.headerMark ∧ (s.respondOk clocked payload).longOp = s.longOp ∧
    (s.respondOk clocked payload).maint = s.maint ∧ (s.respondOk clocked payload).active = s.active ∧
    (s.respondOk clocked payload).staging = s.staging ∧ (s.respondOk clocked payload).copyA = s.copyA ∧
    (s.respondOk clocked payload).copyB = s.copyB ∧ (s.respondOk clocked payload).designation = s.designation ∧
    (s.respondOk clocked payload).configDegraded = s.configDegraded ∧
    (s.respondOk clocked payload).activationDue = s.activationDue ∧
    (s.respondOk clocked payload).freeze = s.freeze ∧
    (s.respondOk clocked payload).deferredFreeze = s.deferredFreeze ∧
    (s.respondOk clocked payload).held = s.held ∧ (s.respondOk clocked payload).pendingRead = s.pendingRead ∧
    (s.respondOk clocked payload).queue = s.queue ∧
    (s.respondOk clocked payload).nextAcceptance = s.nextAcceptance ∧
    (s.respondOk clocked payload).mark = s.mark ∧ (s.respondOk clocked payload).frontResponse = s.frontResponse ∧
    (s.respondOk clocked payload).job = s.job ∧ (s.respondOk clocked payload).parked = s.parked ∧
    (s.respondOk clocked payload).readHeld = s.readHeld ∧ (s.respondOk clocked payload).headHeld = s.headHeld ∧
    (s.respondOk clocked payload).port = s.port ∧ (s.respondOk clocked payload).waitFront = s.waitFront ∧
    (s.respondOk clocked payload).waitMaint = s.waitMaint ∧
    (s.respondOk clocked payload).lastServed = s.lastServed ∧
    (s.respondOk clocked payload).retryCounter = s.retryCounter ∧
    (s.respondOk clocked payload).completion = s.completion ∧
    (s.respondOk clocked payload).ckptLatch = s.ckptLatch ∧ (s.respondOk clocked payload).log = s.log ∧
    (s.respondOk clocked payload).dropped = s.dropped ∧ (s.respondOk clocked payload).alertMask = s.alertMask ∧
    (s.respondOk clocked payload).freeCount = s.freeCount := by
  unfold State.respondOk
  all_goals try dsimp only
  all_goals repeat' split
  all_goals simp

@[simp] theorem State.readResponse_frame (s : State) (clocked : Nat) :
    (s.readResponse clocked).recoveryMark = s.recoveryMark ∧
    (s.readResponse clocked).pending = s.pending ∧ (s.readResponse clocked).inReset = s.inReset ∧
    (s.readResponse clocked).operating = s.operating ∧ (s.readResponse clocked).pfw = s.pfw ∧
    (s.readResponse clocked).ckptHigh = s.ckptHigh ∧ (s.readResponse clocked).mem = s.mem ∧
    (s.readResponse clocked).journal = s.journal ∧ (s.readResponse clocked).epoch = s.epoch ∧
    (s.readResponse clocked).anchorA = s.anchorA ∧ (s.readResponse clocked).anchorB = s.anchorB ∧
    (s.readResponse clocked).slots = s.slots ∧ (s.readResponse clocked).slotHeaders = s.slotHeaders ∧
    (s.readResponse clocked).index = s.index ∧ (s.readResponse clocked).stack = s.stack ∧
    (s.readResponse clocked).nextSequence = s.nextSequence ∧ (s.readResponse clocked).exhausted = s.exhausted ∧
    (s.readResponse clocked).headerMark = s.headerMark ∧ (s.readResponse clocked).longOp = s.longOp ∧
    (s.readResponse clocked).maint = s.maint ∧ (s.readResponse clocked).active = s.active ∧
    (s.readResponse clocked).staging = s.staging ∧ (s.readResponse clocked).copyA = s.copyA ∧
    (s.readResponse clocked).copyB = s.copyB ∧ (s.readResponse clocked).designation = s.designation ∧
    (s.readResponse clocked).configDegraded = s.configDegraded ∧
    (s.readResponse clocked).activationDue = s.activationDue ∧ (s.readResponse clocked).freeze = s.freeze ∧
    (s.readResponse clocked).deferredFreeze = s.deferredFreeze ∧ (s.readResponse clocked).held = s.held ∧
    (s.readResponse clocked).pendingRead = s.pendingRead ∧ (s.readResponse clocked).queue = s.queue ∧
    (s.readResponse clocked).nextAcceptance = s.nextAcceptance ∧ (s.readResponse clocked).mark = s.mark ∧
    (s.readResponse clocked).frontResponse = s.frontResponse ∧ (s.readResponse clocked).job = s.job ∧
    (s.readResponse clocked).parked = s.parked ∧ (s.readResponse clocked).readHeld = s.readHeld ∧
    (s.readResponse clocked).headHeld = s.headHeld ∧ (s.readResponse clocked).port = s.port ∧
    (s.readResponse clocked).waitFront = s.waitFront ∧ (s.readResponse clocked).waitMaint = s.waitMaint ∧
    (s.readResponse clocked).lastServed = s.lastServed ∧ (s.readResponse clocked).retryCounter = s.retryCounter ∧
    (s.readResponse clocked).response = s.response ∧ (s.readResponse clocked).completion = s.completion ∧
    (s.readResponse clocked).ckptLatch = s.ckptLatch ∧ (s.readResponse clocked).log = s.log ∧
    (s.readResponse clocked).dropped = s.dropped ∧ (s.readResponse clocked).alertMask = s.alertMask ∧
    (s.readResponse clocked).freeCount = s.freeCount := by
  unfold State.readResponse
  all_goals try dsimp only
  all_goals repeat' split
  all_goals simp

@[simp] theorem State.popFault_frame (s : State) :
    (s.popFault).recoveryMark = s.recoveryMark ∧
    (s.popFault).pending = s.pending ∧ (s.popFault).inReset = s.inReset ∧ (s.popFault).operating = s.operating ∧
    (s.popFault).pfw = s.pfw ∧ (s.popFault).ckptHigh = s.ckptHigh ∧ (s.popFault).mem = s.mem ∧
    (s.popFault).journal = s.journal ∧ (s.popFault).epoch = s.epoch ∧ (s.popFault).anchorA = s.anchorA ∧
    (s.popFault).anchorB = s.anchorB ∧ (s.popFault).slots = s.slots ∧ (s.popFault).slotHeaders = s.slotHeaders ∧
    (s.popFault).index = s.index ∧ (s.popFault).stack = s.stack ∧ (s.popFault).nextSequence = s.nextSequence ∧
    (s.popFault).exhausted = s.exhausted ∧ (s.popFault).headerMark = s.headerMark ∧
    (s.popFault).longOp = s.longOp ∧ (s.popFault).maint = s.maint ∧ (s.popFault).active = s.active ∧
    (s.popFault).staging = s.staging ∧ (s.popFault).copyA = s.copyA ∧ (s.popFault).copyB = s.copyB ∧
    (s.popFault).designation = s.designation ∧ (s.popFault).configDegraded = s.configDegraded ∧
    (s.popFault).activationDue = s.activationDue ∧ (s.popFault).freeze = s.freeze ∧
    (s.popFault).deferredFreeze = s.deferredFreeze ∧ (s.popFault).held = s.held ∧
    (s.popFault).pendingRead = s.pendingRead ∧ (s.popFault).queue = s.queue ∧
    (s.popFault).nextAcceptance = s.nextAcceptance ∧ (s.popFault).mark = s.mark ∧
    (s.popFault).frontResponse = s.frontResponse ∧ (s.popFault).job = s.job ∧ (s.popFault).parked = s.parked ∧
    (s.popFault).readHeld = s.readHeld ∧ (s.popFault).headHeld = s.headHeld ∧ (s.popFault).port = s.port ∧
    (s.popFault).waitFront = s.waitFront ∧ (s.popFault).waitMaint = s.waitMaint ∧
    (s.popFault).lastServed = s.lastServed ∧ (s.popFault).retryCounter = s.retryCounter ∧
    (s.popFault).completion = s.completion ∧ (s.popFault).ckptLatch = s.ckptLatch ∧
    (s.popFault).alertMask = s.alertMask ∧ (s.popFault).freeCount = s.freeCount := by
  unfold State.popFault
  all_goals try dsimp only
  all_goals repeat' split
  all_goals simp

@[simp] theorem State.respondField_frame (s : State) (c : ConfigRecord) (identifier : Byte) :
    (s.respondField c identifier).recoveryMark = s.recoveryMark ∧
    (s.respondField c identifier).pending = s.pending ∧ (s.respondField c identifier).inReset = s.inReset ∧
    (s.respondField c identifier).operating = s.operating ∧ (s.respondField c identifier).pfw = s.pfw ∧
    (s.respondField c identifier).ckptHigh = s.ckptHigh ∧ (s.respondField c identifier).mem = s.mem ∧
    (s.respondField c identifier).journal = s.journal ∧ (s.respondField c identifier).epoch = s.epoch ∧
    (s.respondField c identifier).anchorA = s.anchorA ∧ (s.respondField c identifier).anchorB = s.anchorB ∧
    (s.respondField c identifier).slots = s.slots ∧ (s.respondField c identifier).slotHeaders = s.slotHeaders ∧
    (s.respondField c identifier).index = s.index ∧ (s.respondField c identifier).stack = s.stack ∧
    (s.respondField c identifier).nextSequence = s.nextSequence ∧
    (s.respondField c identifier).exhausted = s.exhausted ∧
    (s.respondField c identifier).headerMark = s.headerMark ∧ (s.respondField c identifier).longOp = s.longOp ∧
    (s.respondField c identifier).maint = s.maint ∧ (s.respondField c identifier).active = s.active ∧
    (s.respondField c identifier).staging = s.staging ∧ (s.respondField c identifier).copyA = s.copyA ∧
    (s.respondField c identifier).copyB = s.copyB ∧ (s.respondField c identifier).designation = s.designation ∧
    (s.respondField c identifier).configDegraded = s.configDegraded ∧
    (s.respondField c identifier).activationDue = s.activationDue ∧
    (s.respondField c identifier).freeze = s.freeze ∧
    (s.respondField c identifier).deferredFreeze = s.deferredFreeze ∧
    (s.respondField c identifier).held = s.held ∧ (s.respondField c identifier).pendingRead = s.pendingRead ∧
    (s.respondField c identifier).queue = s.queue ∧
    (s.respondField c identifier).nextAcceptance = s.nextAcceptance ∧
    (s.respondField c identifier).mark = s.mark ∧ (s.respondField c identifier).frontResponse = s.frontResponse ∧
    (s.respondField c identifier).job = s.job ∧ (s.respondField c identifier).parked = s.parked ∧
    (s.respondField c identifier).readHeld = s.readHeld ∧ (s.respondField c identifier).headHeld = s.headHeld ∧
    (s.respondField c identifier).port = s.port ∧ (s.respondField c identifier).waitFront = s.waitFront ∧
    (s.respondField c identifier).waitMaint = s.waitMaint ∧
    (s.respondField c identifier).lastServed = s.lastServed ∧
    (s.respondField c identifier).retryCounter = s.retryCounter ∧
    (s.respondField c identifier).completion = s.completion ∧
    (s.respondField c identifier).ckptLatch = s.ckptLatch ∧ (s.respondField c identifier).log = s.log ∧
    (s.respondField c identifier).dropped = s.dropped ∧ (s.respondField c identifier).alertMask = s.alertMask ∧
    (s.respondField c identifier).freeCount = s.freeCount := by
  unfold State.respondField
  all_goals try dsimp only
  all_goals repeat' split
  all_goals simp

@[simp] theorem State.readField_frame (s : State) (selector identifier : Byte) :
    (s.readField selector identifier).recoveryMark = s.recoveryMark ∧
    (s.readField selector identifier).pending = s.pending ∧
    (s.readField selector identifier).inReset = s.inReset ∧
    (s.readField selector identifier).operating = s.operating ∧ (s.readField selector identifier).pfw = s.pfw ∧
    (s.readField selector identifier).ckptHigh = s.ckptHigh ∧ (s.readField selector identifier).mem = s.mem ∧
    (s.readField selector identifier).journal = s.journal ∧ (s.readField selector identifier).epoch = s.epoch ∧
    (s.readField selector identifier).anchorA = s.anchorA ∧
    (s.readField selector identifier).anchorB = s.anchorB ∧ (s.readField selector identifier).slots = s.slots ∧
    (s.readField selector identifier).slotHeaders = s.slotHeaders ∧
    (s.readField selector identifier).index = s.index ∧ (s.readField selector identifier).stack = s.stack ∧
    (s.readField selector identifier).nextSequence = s.nextSequence ∧
    (s.readField selector identifier).exhausted = s.exhausted ∧
    (s.readField selector identifier).headerMark = s.headerMark ∧
    (s.readField selector identifier).longOp = s.longOp ∧ (s.readField selector identifier).maint = s.maint ∧
    (s.readField selector identifier).active = s.active ∧ (s.readField selector identifier).staging = s.staging ∧
    (s.readField selector identifier).copyA = s.copyA ∧ (s.readField selector identifier).copyB = s.copyB ∧
    (s.readField selector identifier).designation = s.designation ∧
    (s.readField selector identifier).configDegraded = s.configDegraded ∧
    (s.readField selector identifier).activationDue = s.activationDue ∧
    (s.readField selector identifier).freeze = s.freeze ∧
    (s.readField selector identifier).deferredFreeze = s.deferredFreeze ∧
    (s.readField selector identifier).held = s.held ∧
    (s.readField selector identifier).pendingRead = s.pendingRead ∧
    (s.readField selector identifier).queue = s.queue ∧
    (s.readField selector identifier).nextAcceptance = s.nextAcceptance ∧
    (s.readField selector identifier).mark = s.mark ∧
    (s.readField selector identifier).frontResponse = s.frontResponse ∧
    (s.readField selector identifier).job = s.job ∧ (s.readField selector identifier).parked = s.parked ∧
    (s.readField selector identifier).readHeld = s.readHeld ∧
    (s.readField selector identifier).headHeld = s.headHeld ∧ (s.readField selector identifier).port = s.port ∧
    (s.readField selector identifier).waitFront = s.waitFront ∧
    (s.readField selector identifier).waitMaint = s.waitMaint ∧
    (s.readField selector identifier).lastServed = s.lastServed ∧
    (s.readField selector identifier).retryCounter = s.retryCounter ∧
    (s.readField selector identifier).completion = s.completion ∧
    (s.readField selector identifier).ckptLatch = s.ckptLatch ∧ (s.readField selector identifier).log = s.log ∧
    (s.readField selector identifier).dropped = s.dropped ∧
    (s.readField selector identifier).alertMask = s.alertMask := by
  unfold State.readField
  all_goals try dsimp only
  all_goals repeat' split
  all_goals simp

@[simp] theorem State.stageField_frame (s : State) (identifier : Byte) (value : Word) :
    (s.stageField identifier value).recoveryMark = s.recoveryMark ∧
    (s.stageField identifier value).pending = s.pending ∧ (s.stageField identifier value).inReset = s.inReset ∧
    (s.stageField identifier value).operating = s.operating ∧ (s.stageField identifier value).pfw = s.pfw ∧
    (s.stageField identifier value).ckptHigh = s.ckptHigh ∧ (s.stageField identifier value).mem = s.mem ∧
    (s.stageField identifier value).journal = s.journal ∧ (s.stageField identifier value).epoch = s.epoch ∧
    (s.stageField identifier value).anchorA = s.anchorA ∧ (s.stageField identifier value).anchorB = s.anchorB ∧
    (s.stageField identifier value).slots = s.slots ∧
    (s.stageField identifier value).slotHeaders = s.slotHeaders ∧
    (s.stageField identifier value).index = s.index ∧ (s.stageField identifier value).stack = s.stack ∧
    (s.stageField identifier value).nextSequence = s.nextSequence ∧
    (s.stageField identifier value).exhausted = s.exhausted ∧
    (s.stageField identifier value).headerMark = s.headerMark ∧
    (s.stageField identifier value).longOp = s.longOp ∧ (s.stageField identifier value).maint = s.maint ∧
    (s.stageField identifier value).active = s.active ∧ (s.stageField identifier value).copyA = s.copyA ∧
    (s.stageField identifier value).copyB = s.copyB ∧
    (s.stageField identifier value).designation = s.designation ∧
    (s.stageField identifier value).configDegraded = s.configDegraded ∧
    (s.stageField identifier value).activationDue = s.activationDue ∧
    (s.stageField identifier value).freeze = s.freeze ∧
    (s.stageField identifier value).deferredFreeze = s.deferredFreeze ∧
    (s.stageField identifier value).held = s.held ∧ (s.stageField identifier value).pendingRead = s.pendingRead ∧
    (s.stageField identifier value).queue = s.queue ∧
    (s.stageField identifier value).nextAcceptance = s.nextAcceptance ∧
    (s.stageField identifier value).mark = s.mark ∧
    (s.stageField identifier value).frontResponse = s.frontResponse ∧
    (s.stageField identifier value).job = s.job ∧ (s.stageField identifier value).parked = s.parked ∧
    (s.stageField identifier value).readHeld = s.readHeld ∧
    (s.stageField identifier value).headHeld = s.headHeld ∧ (s.stageField identifier value).port = s.port ∧
    (s.stageField identifier value).waitFront = s.waitFront ∧
    (s.stageField identifier value).waitMaint = s.waitMaint ∧
    (s.stageField identifier value).lastServed = s.lastServed ∧
    (s.stageField identifier value).retryCounter = s.retryCounter ∧
    (s.stageField identifier value).completion = s.completion ∧
    (s.stageField identifier value).ckptLatch = s.ckptLatch ∧ (s.stageField identifier value).log = s.log ∧
    (s.stageField identifier value).dropped = s.dropped ∧
    (s.stageField identifier value).alertMask = s.alertMask ∧
    (s.stageField identifier value).freeCount = s.freeCount := by
  unfold State.stageField
  all_goals try dsimp only
  all_goals repeat' split
  all_goals simp

@[simp] theorem State.copyActive_frame (s : State) :
    (s.copyActive).recoveryMark = s.recoveryMark ∧
    (s.copyActive).pending = s.pending ∧ (s.copyActive).inReset = s.inReset ∧
    (s.copyActive).operating = s.operating ∧ (s.copyActive).pfw = s.pfw ∧ (s.copyActive).ckptHigh = s.ckptHigh ∧
    (s.copyActive).mem = s.mem ∧ (s.copyActive).journal = s.journal ∧ (s.copyActive).epoch = s.epoch ∧
    (s.copyActive).anchorA = s.anchorA ∧ (s.copyActive).anchorB = s.anchorB ∧ (s.copyActive).slots = s.slots ∧
    (s.copyActive).slotHeaders = s.slotHeaders ∧ (s.copyActive).index = s.index ∧ (s.copyActive).stack = s.stack ∧
    (s.copyActive).nextSequence = s.nextSequence ∧ (s.copyActive).exhausted = s.exhausted ∧
    (s.copyActive).headerMark = s.headerMark ∧ (s.copyActive).longOp = s.longOp ∧ (s.copyActive).maint = s.maint ∧
    (s.copyActive).active = s.active ∧ (s.copyActive).copyA = s.copyA ∧ (s.copyActive).copyB = s.copyB ∧
    (s.copyActive).designation = s.designation ∧ (s.copyActive).configDegraded = s.configDegraded ∧
    (s.copyActive).activationDue = s.activationDue ∧ (s.copyActive).freeze = s.freeze ∧
    (s.copyActive).deferredFreeze = s.deferredFreeze ∧ (s.copyActive).held = s.held ∧
    (s.copyActive).pendingRead = s.pendingRead ∧ (s.copyActive).queue = s.queue ∧
    (s.copyActive).nextAcceptance = s.nextAcceptance ∧ (s.copyActive).mark = s.mark ∧
    (s.copyActive).frontResponse = s.frontResponse ∧ (s.copyActive).job = s.job ∧
    (s.copyActive).parked = s.parked ∧ (s.copyActive).readHeld = s.readHeld ∧
    (s.copyActive).headHeld = s.headHeld ∧ (s.copyActive).port = s.port ∧ (s.copyActive).waitFront = s.waitFront ∧
    (s.copyActive).waitMaint = s.waitMaint ∧ (s.copyActive).lastServed = s.lastServed ∧
    (s.copyActive).retryCounter = s.retryCounter ∧ (s.copyActive).completion = s.completion ∧
    (s.copyActive).ckptLatch = s.ckptLatch ∧ (s.copyActive).log = s.log ∧ (s.copyActive).dropped = s.dropped ∧
    (s.copyActive).alertMask = s.alertMask ∧ (s.copyActive).freeCount = s.freeCount := by
  unfold State.copyActive
  all_goals try dsimp only
  all_goals repeat' split
  all_goals simp

@[simp] theorem State.setAlertMask_frame (s : State) (mask : Byte) :
    (s.setAlertMask mask).recoveryMark = s.recoveryMark ∧
    (s.setAlertMask mask).pending = s.pending ∧ (s.setAlertMask mask).inReset = s.inReset ∧
    (s.setAlertMask mask).operating = s.operating ∧ (s.setAlertMask mask).pfw = s.pfw ∧
    (s.setAlertMask mask).ckptHigh = s.ckptHigh ∧ (s.setAlertMask mask).mem = s.mem ∧
    (s.setAlertMask mask).journal = s.journal ∧ (s.setAlertMask mask).epoch = s.epoch ∧
    (s.setAlertMask mask).anchorA = s.anchorA ∧ (s.setAlertMask mask).anchorB = s.anchorB ∧
    (s.setAlertMask mask).slots = s.slots ∧ (s.setAlertMask mask).slotHeaders = s.slotHeaders ∧
    (s.setAlertMask mask).index = s.index ∧ (s.setAlertMask mask).stack = s.stack ∧
    (s.setAlertMask mask).nextSequence = s.nextSequence ∧ (s.setAlertMask mask).exhausted = s.exhausted ∧
    (s.setAlertMask mask).headerMark = s.headerMark ∧ (s.setAlertMask mask).longOp = s.longOp ∧
    (s.setAlertMask mask).maint = s.maint ∧ (s.setAlertMask mask).active = s.active ∧
    (s.setAlertMask mask).staging = s.staging ∧ (s.setAlertMask mask).copyA = s.copyA ∧
    (s.setAlertMask mask).copyB = s.copyB ∧ (s.setAlertMask mask).designation = s.designation ∧
    (s.setAlertMask mask).configDegraded = s.configDegraded ∧
    (s.setAlertMask mask).activationDue = s.activationDue ∧ (s.setAlertMask mask).freeze = s.freeze ∧
    (s.setAlertMask mask).deferredFreeze = s.deferredFreeze ∧ (s.setAlertMask mask).held = s.held ∧
    (s.setAlertMask mask).pendingRead = s.pendingRead ∧ (s.setAlertMask mask).queue = s.queue ∧
    (s.setAlertMask mask).nextAcceptance = s.nextAcceptance ∧ (s.setAlertMask mask).mark = s.mark ∧
    (s.setAlertMask mask).frontResponse = s.frontResponse ∧ (s.setAlertMask mask).job = s.job ∧
    (s.setAlertMask mask).parked = s.parked ∧ (s.setAlertMask mask).readHeld = s.readHeld ∧
    (s.setAlertMask mask).headHeld = s.headHeld ∧ (s.setAlertMask mask).port = s.port ∧
    (s.setAlertMask mask).waitFront = s.waitFront ∧ (s.setAlertMask mask).waitMaint = s.waitMaint ∧
    (s.setAlertMask mask).lastServed = s.lastServed ∧ (s.setAlertMask mask).retryCounter = s.retryCounter ∧
    (s.setAlertMask mask).completion = s.completion ∧ (s.setAlertMask mask).ckptLatch = s.ckptLatch ∧
    (s.setAlertMask mask).log = s.log ∧ (s.setAlertMask mask).dropped = s.dropped ∧
    (s.setAlertMask mask).freeCount = s.freeCount := by
  unfold State.setAlertMask
  all_goals try dsimp only
  all_goals repeat' split
  all_goals simp

@[simp] theorem State.acceptFreeze_frame (s : State) (region : Fin 16) :
    (s.acceptFreeze region).recoveryMark = s.recoveryMark ∧
    (s.acceptFreeze region).pending = s.pending ∧ (s.acceptFreeze region).inReset = s.inReset ∧
    (s.acceptFreeze region).operating = s.operating ∧ (s.acceptFreeze region).pfw = s.pfw ∧
    (s.acceptFreeze region).ckptHigh = s.ckptHigh ∧ (s.acceptFreeze region).mem = s.mem ∧
    (s.acceptFreeze region).journal = s.journal ∧ (s.acceptFreeze region).epoch = s.epoch ∧
    (s.acceptFreeze region).anchorA = s.anchorA ∧ (s.acceptFreeze region).anchorB = s.anchorB ∧
    (s.acceptFreeze region).slots = s.slots ∧ (s.acceptFreeze region).slotHeaders = s.slotHeaders ∧
    (s.acceptFreeze region).index = s.index ∧ (s.acceptFreeze region).stack = s.stack ∧
    (s.acceptFreeze region).nextSequence = s.nextSequence ∧ (s.acceptFreeze region).exhausted = s.exhausted ∧
    (s.acceptFreeze region).headerMark = s.headerMark ∧ (s.acceptFreeze region).longOp = s.longOp ∧
    (s.acceptFreeze region).maint = s.maint ∧ (s.acceptFreeze region).active = s.active ∧
    (s.acceptFreeze region).staging = s.staging ∧ (s.acceptFreeze region).copyA = s.copyA ∧
    (s.acceptFreeze region).copyB = s.copyB ∧ (s.acceptFreeze region).designation = s.designation ∧
    (s.acceptFreeze region).configDegraded = s.configDegraded ∧
    (s.acceptFreeze region).activationDue = s.activationDue ∧ (s.acceptFreeze region).held = s.held ∧
    (s.acceptFreeze region).pendingRead = s.pendingRead ∧ (s.acceptFreeze region).queue = s.queue ∧
    (s.acceptFreeze region).nextAcceptance = s.nextAcceptance ∧ (s.acceptFreeze region).mark = s.mark ∧
    (s.acceptFreeze region).frontResponse = s.frontResponse ∧ (s.acceptFreeze region).job = s.job ∧
    (s.acceptFreeze region).parked = s.parked ∧ (s.acceptFreeze region).readHeld = s.readHeld ∧
    (s.acceptFreeze region).headHeld = s.headHeld ∧ (s.acceptFreeze region).port = s.port ∧
    (s.acceptFreeze region).waitFront = s.waitFront ∧ (s.acceptFreeze region).waitMaint = s.waitMaint ∧
    (s.acceptFreeze region).lastServed = s.lastServed ∧ (s.acceptFreeze region).retryCounter = s.retryCounter ∧
    (s.acceptFreeze region).completion = s.completion ∧ (s.acceptFreeze region).ckptLatch = s.ckptLatch ∧
    (s.acceptFreeze region).log = s.log ∧ (s.acceptFreeze region).dropped = s.dropped ∧
    (s.acceptFreeze region).alertMask = s.alertMask ∧ (s.acceptFreeze region).freeCount = s.freeCount := by
  unfold State.acceptFreeze
  all_goals try dsimp only
  all_goals repeat' split
  all_goals simp

@[simp] theorem State.freezeRegion_frame (s : State) (region : Byte) :
    (s.freezeRegion region).recoveryMark = s.recoveryMark ∧
    (s.freezeRegion region).pending = s.pending ∧ (s.freezeRegion region).inReset = s.inReset ∧
    (s.freezeRegion region).operating = s.operating ∧ (s.freezeRegion region).pfw = s.pfw ∧
    (s.freezeRegion region).ckptHigh = s.ckptHigh ∧ (s.freezeRegion region).mem = s.mem ∧
    (s.freezeRegion region).journal = s.journal ∧ (s.freezeRegion region).epoch = s.epoch ∧
    (s.freezeRegion region).anchorA = s.anchorA ∧ (s.freezeRegion region).anchorB = s.anchorB ∧
    (s.freezeRegion region).slots = s.slots ∧ (s.freezeRegion region).slotHeaders = s.slotHeaders ∧
    (s.freezeRegion region).index = s.index ∧ (s.freezeRegion region).stack = s.stack ∧
    (s.freezeRegion region).nextSequence = s.nextSequence ∧ (s.freezeRegion region).exhausted = s.exhausted ∧
    (s.freezeRegion region).headerMark = s.headerMark ∧ (s.freezeRegion region).longOp = s.longOp ∧
    (s.freezeRegion region).maint = s.maint ∧ (s.freezeRegion region).active = s.active ∧
    (s.freezeRegion region).staging = s.staging ∧ (s.freezeRegion region).copyA = s.copyA ∧
    (s.freezeRegion region).copyB = s.copyB ∧ (s.freezeRegion region).designation = s.designation ∧
    (s.freezeRegion region).configDegraded = s.configDegraded ∧
    (s.freezeRegion region).activationDue = s.activationDue ∧ (s.freezeRegion region).held = s.held ∧
    (s.freezeRegion region).pendingRead = s.pendingRead ∧ (s.freezeRegion region).queue = s.queue ∧
    (s.freezeRegion region).nextAcceptance = s.nextAcceptance ∧ (s.freezeRegion region).mark = s.mark ∧
    (s.freezeRegion region).frontResponse = s.frontResponse ∧ (s.freezeRegion region).job = s.job ∧
    (s.freezeRegion region).parked = s.parked ∧ (s.freezeRegion region).readHeld = s.readHeld ∧
    (s.freezeRegion region).headHeld = s.headHeld ∧ (s.freezeRegion region).port = s.port ∧
    (s.freezeRegion region).waitFront = s.waitFront ∧ (s.freezeRegion region).waitMaint = s.waitMaint ∧
    (s.freezeRegion region).lastServed = s.lastServed ∧ (s.freezeRegion region).retryCounter = s.retryCounter ∧
    (s.freezeRegion region).completion = s.completion ∧ (s.freezeRegion region).ckptLatch = s.ckptLatch ∧
    (s.freezeRegion region).log = s.log ∧ (s.freezeRegion region).dropped = s.dropped ∧
    (s.freezeRegion region).alertMask = s.alertMask ∧ (s.freezeRegion region).freeCount = s.freeCount := by
  unfold State.freezeRegion
  all_goals try dsimp only
  all_goals repeat' split
  all_goals simp

@[simp] theorem State.longCommand_frame (s : State) (clocked : Nat) (kind : OpKind) (skip : Bool) :
    (s.longCommand clocked kind skip).pending = s.pending ∧
    (s.longCommand clocked kind skip).inReset = s.inReset ∧ (s.longCommand clocked kind skip).pfw = s.pfw ∧
    (s.longCommand clocked kind skip).ckptHigh = s.ckptHigh ∧ (s.longCommand clocked kind skip).mem = s.mem ∧
    (s.longCommand clocked kind skip).epoch = s.epoch ∧ (s.longCommand clocked kind skip).anchorA = s.anchorA ∧
    (s.longCommand clocked kind skip).anchorB = s.anchorB ∧ (s.longCommand clocked kind skip).slots = s.slots ∧
    (s.longCommand clocked kind skip).slotHeaders = s.slotHeaders ∧
    (s.longCommand clocked kind skip).index = s.index ∧ (s.longCommand clocked kind skip).stack = s.stack ∧
    (s.longCommand clocked kind skip).nextSequence = s.nextSequence ∧
    (s.longCommand clocked kind skip).exhausted = s.exhausted ∧
    (s.longCommand clocked kind skip).headerMark = s.headerMark ∧
    (s.longCommand clocked kind skip).active = s.active ∧ (s.longCommand clocked kind skip).staging = s.staging ∧
    (s.longCommand clocked kind skip).copyA = s.copyA ∧ (s.longCommand clocked kind skip).copyB = s.copyB ∧
    (s.longCommand clocked kind skip).designation = s.designation ∧
    (s.longCommand clocked kind skip).configDegraded = s.configDegraded ∧
    (s.longCommand clocked kind skip).activationDue = s.activationDue ∧
    (s.longCommand clocked kind skip).freeze = s.freeze ∧
    (s.longCommand clocked kind skip).deferredFreeze = s.deferredFreeze ∧
    (s.longCommand clocked kind skip).pendingRead = s.pendingRead ∧
    (s.longCommand clocked kind skip).job = s.job ∧ (s.longCommand clocked kind skip).port = s.port ∧
    (s.longCommand clocked kind skip).waitFront = s.waitFront ∧
    (s.longCommand clocked kind skip).waitMaint = s.waitMaint ∧
    (s.longCommand clocked kind skip).lastServed = s.lastServed ∧
    (s.longCommand clocked kind skip).retryCounter = s.retryCounter ∧
    (s.longCommand clocked kind skip).alertMask = s.alertMask ∧
    (s.longCommand clocked kind skip).freeCount = s.freeCount := by
  unfold State.longCommand
  all_goals try dsimp only
  all_goals repeat' split
  all_goals simp

@[simp] theorem State.resumeCommand_frame (s : State) (skip : Byte) :
    (s.resumeCommand skip).pending = s.pending ∧ (s.resumeCommand skip).inReset = s.inReset ∧
    (s.resumeCommand skip).pfw = s.pfw ∧ (s.resumeCommand skip).ckptHigh = s.ckptHigh ∧
    (s.resumeCommand skip).mem = s.mem ∧ (s.resumeCommand skip).epoch = s.epoch ∧
    (s.resumeCommand skip).anchorA = s.anchorA ∧ (s.resumeCommand skip).anchorB = s.anchorB ∧
    (s.resumeCommand skip).slots = s.slots ∧ (s.resumeCommand skip).slotHeaders = s.slotHeaders ∧
    (s.resumeCommand skip).index = s.index ∧ (s.resumeCommand skip).stack = s.stack ∧
    (s.resumeCommand skip).nextSequence = s.nextSequence ∧ (s.resumeCommand skip).exhausted = s.exhausted ∧
    (s.resumeCommand skip).headerMark = s.headerMark ∧ (s.resumeCommand skip).active = s.active ∧
    (s.resumeCommand skip).staging = s.staging ∧ (s.resumeCommand skip).copyA = s.copyA ∧
    (s.resumeCommand skip).copyB = s.copyB ∧ (s.resumeCommand skip).designation = s.designation ∧
    (s.resumeCommand skip).configDegraded = s.configDegraded ∧
    (s.resumeCommand skip).activationDue = s.activationDue ∧ (s.resumeCommand skip).freeze = s.freeze ∧
    (s.resumeCommand skip).deferredFreeze = s.deferredFreeze ∧
    (s.resumeCommand skip).pendingRead = s.pendingRead ∧ (s.resumeCommand skip).job = s.job ∧
    (s.resumeCommand skip).port = s.port ∧ (s.resumeCommand skip).waitFront = s.waitFront ∧
    (s.resumeCommand skip).waitMaint = s.waitMaint ∧ (s.resumeCommand skip).lastServed = s.lastServed ∧
    (s.resumeCommand skip).retryCounter = s.retryCounter ∧ (s.resumeCommand skip).alertMask = s.alertMask ∧
    (s.resumeCommand skip).freeCount = s.freeCount := by
  unfold State.resumeCommand
  all_goals try dsimp only
  all_goals repeat' split
  all_goals simp

@[simp] theorem State.latchCkpt_frame (s : State) :
    (s.latchCkpt).recoveryMark = s.recoveryMark ∧
    (s.latchCkpt).pending = s.pending ∧ (s.latchCkpt).inReset = s.inReset ∧
    (s.latchCkpt).operating = s.operating ∧ (s.latchCkpt).pfw = s.pfw ∧ (s.latchCkpt).ckptHigh = s.ckptHigh ∧
    (s.latchCkpt).mem = s.mem ∧ (s.latchCkpt).journal = s.journal ∧ (s.latchCkpt).epoch = s.epoch ∧
    (s.latchCkpt).anchorA = s.anchorA ∧ (s.latchCkpt).anchorB = s.anchorB ∧ (s.latchCkpt).slots = s.slots ∧
    (s.latchCkpt).slotHeaders = s.slotHeaders ∧ (s.latchCkpt).index = s.index ∧ (s.latchCkpt).stack = s.stack ∧
    (s.latchCkpt).nextSequence = s.nextSequence ∧ (s.latchCkpt).exhausted = s.exhausted ∧
    (s.latchCkpt).headerMark = s.headerMark ∧ (s.latchCkpt).longOp = s.longOp ∧ (s.latchCkpt).maint = s.maint ∧
    (s.latchCkpt).active = s.active ∧ (s.latchCkpt).staging = s.staging ∧ (s.latchCkpt).copyA = s.copyA ∧
    (s.latchCkpt).copyB = s.copyB ∧ (s.latchCkpt).designation = s.designation ∧
    (s.latchCkpt).configDegraded = s.configDegraded ∧ (s.latchCkpt).activationDue = s.activationDue ∧
    (s.latchCkpt).freeze = s.freeze ∧ (s.latchCkpt).deferredFreeze = s.deferredFreeze ∧
    (s.latchCkpt).held = s.held ∧ (s.latchCkpt).pendingRead = s.pendingRead ∧ (s.latchCkpt).queue = s.queue ∧
    (s.latchCkpt).nextAcceptance = s.nextAcceptance ∧ (s.latchCkpt).mark = s.mark ∧
    (s.latchCkpt).frontResponse = s.frontResponse ∧ (s.latchCkpt).job = s.job ∧ (s.latchCkpt).parked = s.parked ∧
    (s.latchCkpt).readHeld = s.readHeld ∧ (s.latchCkpt).headHeld = s.headHeld ∧ (s.latchCkpt).port = s.port ∧
    (s.latchCkpt).waitFront = s.waitFront ∧ (s.latchCkpt).waitMaint = s.waitMaint ∧
    (s.latchCkpt).lastServed = s.lastServed ∧ (s.latchCkpt).retryCounter = s.retryCounter ∧
    (s.latchCkpt).response = s.response ∧ (s.latchCkpt).linkOut = s.linkOut ∧
    (s.latchCkpt).completion = s.completion ∧ (s.latchCkpt).log = s.log ∧ (s.latchCkpt).dropped = s.dropped ∧
    (s.latchCkpt).alertMask = s.alertMask ∧ (s.latchCkpt).freeCount = s.freeCount := by
  unfold State.latchCkpt
  all_goals try dsimp only
  all_goals repeat' split
  all_goals simp

@[simp] theorem State.checkpointRequest_frame (s : State) :
    (s.checkpointRequest).pending = s.pending ∧ (s.checkpointRequest).inReset = s.inReset ∧
    (s.checkpointRequest).pfw = s.pfw ∧ (s.checkpointRequest).ckptHigh = s.ckptHigh ∧
    (s.checkpointRequest).mem = s.mem ∧ (s.checkpointRequest).epoch = s.epoch ∧
    (s.checkpointRequest).anchorA = s.anchorA ∧ (s.checkpointRequest).anchorB = s.anchorB ∧
    (s.checkpointRequest).slots = s.slots ∧ (s.checkpointRequest).slotHeaders = s.slotHeaders ∧
    (s.checkpointRequest).index = s.index ∧ (s.checkpointRequest).stack = s.stack ∧
    (s.checkpointRequest).nextSequence = s.nextSequence ∧ (s.checkpointRequest).exhausted = s.exhausted ∧
    (s.checkpointRequest).headerMark = s.headerMark ∧ (s.checkpointRequest).active = s.active ∧
    (s.checkpointRequest).staging = s.staging ∧ (s.checkpointRequest).copyA = s.copyA ∧
    (s.checkpointRequest).copyB = s.copyB ∧ (s.checkpointRequest).designation = s.designation ∧
    (s.checkpointRequest).configDegraded = s.configDegraded ∧
    (s.checkpointRequest).activationDue = s.activationDue ∧ (s.checkpointRequest).freeze = s.freeze ∧
    (s.checkpointRequest).deferredFreeze = s.deferredFreeze ∧ (s.checkpointRequest).pendingRead = s.pendingRead ∧
    (s.checkpointRequest).job = s.job ∧ (s.checkpointRequest).port = s.port ∧
    (s.checkpointRequest).waitFront = s.waitFront ∧ (s.checkpointRequest).waitMaint = s.waitMaint ∧
    (s.checkpointRequest).lastServed = s.lastServed ∧ (s.checkpointRequest).retryCounter = s.retryCounter ∧
    (s.checkpointRequest).response = s.response ∧ (s.checkpointRequest).linkOut = s.linkOut ∧
    (s.checkpointRequest).alertMask = s.alertMask ∧ (s.checkpointRequest).freeCount = s.freeCount := by
  unfold State.checkpointRequest
  all_goals try dsimp only
  all_goals repeat' split
  all_goals simp

end Sys2Proof.Machine
end

