-- ==== Sys2Proof/Laws/Ops.lean ====
section
/-! SUPPORT. What the shared operations do, one lemma for each: the memory device's rows and their canonical form, the
fault log, the row index and the slot table, the arbiter, and the records an operation leaves. -/
namespace Sys2Proof.Machine

/-! ## The memory device -/

theorem Memory.above_erase (k n : Nat) : ∀ m : Memory, m.above k = true → (m.erase n).above k = true
  | [], _ => rfl
  | (a, r) :: rest, h => by
    simp only [Memory.above, Bool.and_eq_true, decide_eq_true_eq] at h
    simp only [Memory.erase]
    split
    · exact h.2
    · simp only [Memory.above, Bool.and_eq_true, decide_eq_true_eq]
      exact ⟨h.1, Memory.above_erase k n rest h.2⟩

theorem Memory.above_insert (k n : Nat) (x : Row) (hk : k < n) :
    ∀ m : Memory, m.above k = true → (m.insert n x).above k = true
  | [], _ => by simp [Memory.insert, Memory.above, hk]
  | (a, r) :: rest, h => by
    simp only [Memory.above, Bool.and_eq_true, decide_eq_true_eq] at h
    simp only [Memory.insert]
    split
    · simp [Memory.above, hk, h.1, h.2]
    · split
      · simp [Memory.above, hk, h.2]
      · simp [Memory.above, h.1, Memory.above_insert k n x hk rest h.2]

theorem Memory.above_mono {a b : Nat} (hab : a < b) : ∀ m : Memory, m.above b = true → m.above a = true
  | [], _ => rfl
  | (k, r) :: rest, h => by
    simp only [Memory.above, Bool.and_eq_true, decide_eq_true_eq] at h ⊢
    exact ⟨Nat.lt_trans hab h.1, Memory.above_mono hab rest h.2⟩

theorem Memory.erase_wf (n : Nat) : ∀ m : Memory, m.wf = true → (m.erase n).wf = true
  | [], _ => rfl
  | (a, r) :: rest, h => by
    simp only [Memory.wf, Bool.and_eq_true] at h
    simp only [Memory.erase]
    split
    · exact h.2
    · simp only [Memory.wf, Bool.and_eq_true]
      exact ⟨⟨h.1.1, Memory.above_erase a n rest h.1.2⟩, Memory.erase_wf n rest h.2⟩

theorem Memory.insert_wf (n : Nat) (x : Row) (hx : x ≠ Config.unwrittenRow) :
    ∀ m : Memory, m.wf = true → (m.insert n x).wf = true
  | [], _ => by simp [Memory.insert, Memory.wf, Memory.above, hx]
  | (a, r) :: rest, h => by
    simp only [Memory.wf, Bool.and_eq_true] at h
    simp only [Memory.insert]
    split
    · next hlt =>
      simp only [Memory.wf, Memory.above, Bool.and_eq_true, decide_eq_true_eq]
      exact ⟨⟨by simpa using hx, hlt, Memory.above_mono hlt rest h.1.2⟩, h⟩
    · split
      · next heq =>
        subst heq
        simp only [Memory.wf, Bool.and_eq_true]
        exact ⟨⟨by simpa using hx, h.1.2⟩, h.2⟩
      · next hlt hne =>
        simp only [Memory.wf, Bool.and_eq_true]
        exact ⟨⟨h.1.1, Memory.above_insert a n x (by omega) rest h.1.2⟩, Memory.insert_wf n x hx rest h.2⟩

/-- A row write keeps the canonical form. -/
theorem Memory.write_wf (m : Memory) (n : Nat) (x : Row) (h : m.wf = true) : (m.write n x).wf = true := by
  unfold Memory.write
  split
  · exact Memory.erase_wf n m h
  · next hx => exact Memory.insert_wf n x hx m h

theorem Memory.read_above (k : Nat) : ∀ m : Memory, m.above k = true → m.read k = Config.unwrittenRow
  | [], _ => rfl
  | (a, r) :: rest, h => by
    simp only [Memory.above, Bool.and_eq_true, decide_eq_true_eq] at h
    simp only [Memory.read]
    rw [if_neg (by omega)]
    exact Memory.read_above k rest h.2

theorem Memory.read_insert_same (n : Nat) (x : Row) : ∀ m : Memory, (m.insert n x).read n = x
  | [] => by simp [Memory.insert, Memory.read]
  | (a, r) :: rest => by
    simp only [Memory.insert]
    split
    · simp [Memory.read]
    · split
      · simp [Memory.read]
      · next hne => simp only [Memory.read, if_neg hne]; exact Memory.read_insert_same n x rest

theorem Memory.read_erase_same (n : Nat) : ∀ m : Memory, m.wf = true → (m.erase n).read n = Config.unwrittenRow
  | [], _ => rfl
  | (a, r) :: rest, h => by
    simp only [Memory.wf, Bool.and_eq_true] at h
    simp only [Memory.erase]
    split
    · next heq => subst heq; exact Memory.read_above a rest h.1.2
    · next hne => simp only [Memory.read, if_neg hne]; exact Memory.read_erase_same n rest h.2

/-- A row reads as it was last written. -/
theorem Memory.read_write_same (m : Memory) (n : Nat) (x : Row) (h : m.wf = true) : (m.write n x).read n = x := by
  unfold Memory.write
  split
  · next hx => rw [hx]; exact Memory.read_erase_same n m h
  · exact Memory.read_insert_same n x m

theorem Memory.read_erase_other (n k : Nat) (hk : k ≠ n) : ∀ m : Memory, (m.erase n).read k = m.read k
  | [] => rfl
  | (a, r) :: rest => by
    simp only [Memory.erase]
    split
    · next heq => simp only [Memory.read]; rw [if_neg (by omega)]
    · simp only [Memory.read]; split
      · rfl
      · exact Memory.read_erase_other n k hk rest

theorem Memory.read_insert_other (n k : Nat) (x : Row) (hk : k ≠ n) : ∀ m : Memory, (m.insert n x).read k = m.read k
  | [] => by simp [Memory.insert, Memory.read, Ne.symm hk]
  | (a, r) :: rest => by
    simp only [Memory.insert]
    split
    · simp [Memory.read, Ne.symm hk]
    · split
      · next heq => subst heq; simp [Memory.read, Ne.symm hk]
      · simp only [Memory.read]; split
        · rfl
        · exact Memory.read_insert_other n k x hk rest

/-- A row write leaves every other row as it was. -/
theorem Memory.read_write_other (m : Memory) (n k : Nat) (x : Row) (hk : k ≠ n) : (m.write n x).read k = m.read k := by
  unfold Memory.write
  split
  · exact Memory.read_erase_other n k hk m
  · exact Memory.read_insert_other n k x hk m

/-! ## The fault log -/

/-- A filing changes the log or the dropped counter, and nothing else (R192). -/
theorem State.file_eq (s : State) (f : FaultRecord) : s.file f =
    { s with
      log := if s.log.length < 16 then s.log ++ [f] else s.log
      dropped := if s.log.length < 16 then s.dropped else countUp s.dropped } := by
  unfold State.file
  split <;> rfl

/-- A filing keeps the law of the log (R192). -/
theorem State.file_logLaw (s : State) (f : FaultRecord) (h : s.logLaw) : (s.file f).logLaw := by
  unfold State.logLaw State.file at *
  split
  · next hlt => exact ⟨by simp; omega, by simp⟩
  · next hge => exact ⟨h.1, fun _ he => hge (by simp only at he; simp [he])⟩

/-! ## The row index -/

theorem indexGet_indexSet_same (row slot : Nat) : ∀ l, indexGet (indexSet l row slot) row = some slot
  | [] => by simp [indexSet, indexGet]
  | (r, k) :: rest => by
    simp only [indexSet]
    split
    · simp [indexGet]
    · split
      · simp [indexGet]
      · next hne => simp only [indexGet, if_neg hne]; exact indexGet_indexSet_same row slot rest

theorem indexGet_indexSet_other (row slot n : Nat) (h : n ≠ row) :
    ∀ l, indexGet (indexSet l row slot) n = indexGet l n
  | [] => by simp [indexSet, indexGet, Ne.symm h]
  | (r, k) :: rest => by
    simp only [indexSet]
    split
    · simp [indexGet, Ne.symm h]
    · split
      · next heq => subst heq; simp [indexGet, Ne.symm h]
      · simp only [indexGet]; split
        · rfl
        · exact indexGet_indexSet_other row slot n h rest

theorem indexGet_indexErase_other (row n : Nat) (h : n ≠ row) :
    ∀ l, indexGet (indexErase l row) n = indexGet l n
  | [] => rfl
  | (r, k) :: rest => by
    simp only [indexErase]
    split
    · next heq => subst heq; simp [indexGet, Ne.symm h]
    · simp only [indexGet]; split
      · rfl
      · exact indexGet_indexErase_other row n h rest

theorem indexGet_none (row : Nat) : ∀ l : List (Nat × Nat), row ∉ l.map Prod.fst → indexGet l row = none
  | [], _ => rfl
  | (r, k) :: rest, h => by
    simp only [List.map_cons, List.mem_cons, not_or] at h
    simp only [indexGet]
    rw [if_neg (Ne.symm h.1)]
    exact indexGet_none row rest h.2

/-- A row whose entry leaves an index in row order has no entry. -/
theorem indexGet_indexErase_same (row : Nat) :
    ∀ l : List (Nat × Nat), indexRising l → indexGet (indexErase l row) row = none
  | [], _ => rfl
  | (r, k) :: rest, h => by
    have h' : (∀ n ∈ rest.map Prod.fst, r < n) ∧ indexRising rest := List.pairwise_cons.mp h
    simp only [indexErase]
    split
    · next heq => subst heq; exact indexGet_none r rest fun hm => Nat.lt_irrefl _ (h'.1 r hm)
    · next hne => simp only [indexGet, if_neg hne]; exact indexGet_indexErase_same row rest h'.2

theorem mem_keys_indexErase (row n : Nat) :
    ∀ l : List (Nat × Nat), n ∈ (indexErase l row).map Prod.fst → n ∈ l.map Prod.fst
  | [], h => h
  | (r, k) :: rest, h => by
    simp only [indexErase] at h
    split at h
    · exact List.mem_cons_of_mem _ h
    · rcases List.mem_cons.mp h with h | h
      · exact h ▸ List.mem_cons_self
      · exact List.mem_cons_of_mem _ (mem_keys_indexErase row n rest h)

theorem mem_keys_indexSet (row slot n : Nat) :
    ∀ l : List (Nat × Nat), n ∈ (indexSet l row slot).map Prod.fst → n = row ∨ n ∈ l.map Prod.fst
  | [], h => .inl (by simpa [indexSet] using h)
  | (r, k) :: rest, h => by
    simp only [indexSet] at h
    split at h
    · exact List.mem_cons.mp h
    · split at h
      · rcases List.mem_cons.mp h with h | h
        · exact .inl h
        · exact .inr (List.mem_cons_of_mem _ h)
      · rcases List.mem_cons.mp h with h | h
        · exact .inr (h ▸ List.mem_cons_self)
        · exact (mem_keys_indexSet row slot n rest h).imp_right (List.mem_cons_of_mem _)

/-- Removing an entry keeps the row order. -/
theorem indexRising_indexErase (row : Nat) : ∀ l : List (Nat × Nat), indexRising l → indexRising (indexErase l row)
  | [], h => h
  | (r, k) :: rest, h => by
    have h' : (∀ n ∈ rest.map Prod.fst, r < n) ∧ indexRising rest := List.pairwise_cons.mp h
    simp only [indexErase]
    split
    · exact h'.2
    · exact List.pairwise_cons.mpr
        ⟨fun n hn => h'.1 n (mem_keys_indexErase row n rest hn), indexRising_indexErase row rest h'.2⟩

/-- Setting an entry keeps the row order. -/
theorem indexRising_indexSet (row slot : Nat) :
    ∀ l : List (Nat × Nat), indexRising l → indexRising (indexSet l row slot)
  | [], _ => List.pairwise_singleton _ _
  | (r, k) :: rest, h => by
    have h' : (∀ n ∈ rest.map Prod.fst, r < n) ∧ indexRising rest := List.pairwise_cons.mp h
    simp only [indexSet]
    split
    · next hlt =>
      refine List.pairwise_cons.mpr ⟨fun n hn => ?_, h⟩
      rcases List.mem_cons.mp hn with hn | hn
      · exact hn ▸ hlt
      · exact Nat.lt_trans hlt (h'.1 n hn)
    · split
      · next heq => subst heq; exact List.pairwise_cons.mpr ⟨h'.1, h'.2⟩
      · next hlt hne =>
        refine List.pairwise_cons.mpr ⟨fun n hn => ?_, indexRising_indexSet row slot rest h'.2⟩
        rcases mem_keys_indexSet row slot n rest hn with hn | hn
        · show r < n
          omega
        · exact h'.1 n hn

/-- A repair keeps the row order (R35). -/
theorem indexRising_indexRepair (index : List (Nat × Nat)) (row : Nat) (link : Option Nat) (h : indexRising index) :
    indexRising (indexRepair index row link) := by
  cases link with
  | none => exact indexRising_indexErase row index h
  | some b => exact indexRising_indexSet row b index h

/-- The index that a start builds is in row order (R79). -/
theorem indexRising_indexFrom :
    ∀ (l : List SlotEntry) (k : Nat) (index : List (Nat × Nat)), indexRising index → indexRising (indexFrom k index l)
  | [], _, _, h => h
  | e :: rest, k, index, h => indexRising_indexFrom rest (k + 1) _ (indexRising_indexSet e.target k index h)

/-! ## The slot table -/

theorem newestFrom_append (row : Nat) (e : SlotEntry) :
    ∀ (l : List SlotEntry) (k : Nat),
      newestFrom k (l ++ [e]) row = if e.target = row then some (k + l.length) else newestFrom k l row
  | [], k => by by_cases h : e.target = row <;> simp [newestFrom, h]
  | x :: l, k => by
    simp only [List.cons_append, newestFrom, newestFrom_append row e l (k + 1), List.length_cons]
    split
    · next heq => split at heq
                  · next h => rw [if_pos h]; injection heq with h'; rw [← h']; congr 1; omega
                  · next h => rw [if_neg h]
                              simp [heq]
    · next heq => split at heq
                  · exact absurd heq (by simp)
                  · next h => rw [if_neg h, heq]

/-- The newest slot of a row in a table that one record joins (R15, R22). -/
theorem newestSlot_append (l : List SlotEntry) (e : SlotEntry) (row : Nat) :
    newestSlot (l ++ [e]) row = if e.target = row then some l.length else newestSlot l row := by
  unfold newestSlot
  rw [newestFrom_append]
  simp

/-! ## The arbiter -/

/-- A request at an IDLE port for which the other requester does not wait is granted at once (R156). -/
theorem State.requestPort_idle (s : State) (r : Requester) (op : RowOp) (hp : s.port = .idle)
    (hw : s.waiting r.other = none) : s.requestPort r op = s.grant r op := by
  simp [State.requestPort, hp, hw]

/-- A request at a busy port waits (R156). -/
theorem State.requestPort_busy (s : State) (r : Requester) (op : RowOp) (hp : s.port ≠ .idle) :
    s.requestPort r op = s.setWaiting r (some op) := by
  unfold State.requestPort
  split
  · next h => exact absurd h hp
  · rfl
  · rfl

/-! ## FRONT -/

/-- An operation of FRONT is in flight, being aborted, or waiting (R155, R156). -/
theorem State.mem_frontOps (s : State) (op : RowOp) :
    op ∈ s.frontOps ↔
      (∃ f, (s.port = .inFlight f ∨ s.port = .aborting f) ∧ f.requester = .front ∧ f.op = op)
        ∨ s.waitFront = some op := by
  have key : ∀ f : Flight, op ∈ (if f.requester = .front then [f.op] else []) ↔ f.requester = .front ∧ f.op = op := by
    intro f
    split
    · next h => simp [h, eq_comm]
    · next h => simp [h]
  unfold State.frontOps
  cases hp : s.port with
  | idle => simp
  | inFlight f => simp [key]
  | aborting f => simp [key]

/-! ## Anchors -/

/-- A row holds the intended anchor when it is GOOD and its four fields are the intended ones (R7, R25, R200). -/
theorem State.holdsAnchor_iff (s : State) (c : Copy) (epoch : Word) (r : Row) :
    s.holdsAnchor c epoch r = true ↔
      rowGood (s.anchorRow c) r = true ∧ Anchor.decode r.data = s.anchorFor epoch := by
  simp [State.holdsAnchor]

/-! ## The burst check -/

/-- Every acceptable burst has a length and an alignment of the table of R94. -/
theorem burstAcceptable_iff (address : Address) (beats : Nat) :
    burstAcceptable address beats = true ↔
      (beats = 1 ∨ beats = 2 ∨ beats = 4 ∨ beats = 8) ∧ address.toNat % (4 * beats) = 0 := by
  simp [burstAcceptable, or_assoc]

end Sys2Proof.Machine
end

