-- ==== Sys2Proof/Laws/Maint.lean ====
section
/-! SUPPORT. What a MAINT row operation gives its task when it ends, how a long operation ends, and what the scan's
tables hold: one lemma for each, so that a proof about a step of the start or of a long operation unfolds only its own
meaning. -/
namespace Sys2Proof.Machine

/-! ## The port after an operation -/

/-- Freeing the port changes the port, the waiting requests and the last-served record, and nothing else (R156). -/
theorem State.portFreed_eq (s : State) : ∃ p wf wm ls,
    s.portFreed = { s with port := p, waitFront := wf, waitMaint := wm, lastServed := ls } := by
  unfold State.portFreed State.arbitrate
  dsimp only
  rcases hl : s.lastServed with _ | _ <;> simp only [Requester.other, State.waiting] <;>
    rcases hf : s.waitFront with _ | a <;> rcases hm : s.waitMaint with _ | b <;>
    exact ⟨_, _, _, _, rfl⟩

/-- After a completed write of MAINT only the memory and the port differ. -/
theorem State.wrote_eq (s : State) (row : Nat) (content : Row) : ∃ p wf wm ls,
    s.wrote row content =
      { s with mem := s.mem.write row content, port := p, waitFront := wf, waitMaint := wm, lastServed := ls } := by
  obtain ⟨p, wf, wm, ls, h⟩ := State.portFreed_eq { s with mem := s.mem.write row content }
  exact ⟨p, wf, wm, ls, h⟩

/-- After a failed write of MAINT only the memory and the port differ. -/
theorem State.wroteInPart_eq (s : State) (row : Nat) (content : Row) (left : Residue) : ∃ p wf wm ls,
    s.wroteInPart row content left =
      { s with
        mem := s.mem.write row (residueRow row (s.mem.read row) content left), port := p, waitFront := wf
        waitMaint := wm, lastServed := ls } := by
  obtain ⟨p, wf, wm, ls, h⟩ :=
    State.portFreed_eq { s with mem := s.mem.write row (residueRow row (s.mem.read row) content left) }
  exact ⟨p, wf, wm, ls, h⟩

/-! ## The result reaches its task -/

/-- A read of MAINT that completes gives its task the row (R148). -/
theorem exec_of_maintReads {s : State} {task row x} (h : s.maintReads task row x) :
    exec (.memoryAttemptDone none) s = .next (s.portFreed.deliverMaint (.done x)) := by
  obtain ⟨_, hx, f, hp, hr, ho⟩ := h
  simp only [exec, execMemoryAttemptDone, hp, ho, completeAttempt, State.finishOperation, hr, State.deliver, hx]
  rfl

/-- A write of MAINT that completes gives its task the row written (R148). -/
theorem exec_of_maintWrites {s : State} {task row content} (h : s.maintWrites task row content) :
    exec (.memoryAttemptDone none) s = .next ((s.wrote row content).deliverMaint (.done content)) := by
  obtain ⟨_, f, hp, hr, ho⟩ := h
  simp only [exec, execMemoryAttemptDone, hp, ho, completeAttempt, State.finishOperation, hr, State.deliver]
  rfl

/-- A row operation of MAINT that fails for good gives its task the kind of its last attempt (R152). -/
theorem exec_of_maintFails {s : State} {task : MaintTask} {op : RowOp} {c : Instr} {left : Residue} {kind : FaultKind}
    (h : s.maintFails task op c left kind) :
    ∃ m : MemFault, m.kind = kind ∧
      exec c s = .next ((match op with
        | .read _ => s.portFreed
        | .write row content => s.wroteInPart row content left).deliverMaint (.failed m)) := by
  obtain ⟨_, f, hr, rfl, ha, ⟨rfl, hp, rfl⟩ | ⟨rfl, hp, rfl⟩⟩ := h
  · refine ⟨.fail, rfl, ?_⟩
    simp only [exec, execMemoryAttemptFail, hp, State.leaveResidue]
    cases f.op <;>
      (simp only [State.attemptFailed, State.finishOperation, hr, State.deliver]
       rw [if_neg (by omega)]
       rfl)
  · refine ⟨.timeout, rfl, ?_⟩
    simp only [exec, execAbortAcknowledge, hp, State.leaveResidue]
    cases f.op <;>
      (simp only [State.attemptFailed, State.finishOperation, hr, State.deliver]
       rw [if_neg (by omega)]
       rfl)

/-! ## A filing leaves the journal's geometry and epoch -/

theorem State.file_base (t : State) (f) : (t.file f).base = t.base := by simp [State.base]

theorem State.file_nSlots (t : State) (f) : (t.file f).nSlots = t.nSlots := by simp [State.nSlots]

theorem State.file_epochOrZero (t : State) (f) : (t.file f).epochOrZero = t.epochOrZero := by simp [State.epochOrZero]

/-! ## The end of a long operation -/

/-- The start's rollback ends the start in RUNNING, when no request is latched and PFW is deasserted (R70, R81). -/
theorem State.endOperation_start (t : State) (o : LongOp) (j : JournalState) (r : OpResult) (f : Option FaultKind)
    (ho : t.longOp = some o) (hor : o.origin = .start) (hl : t.ckptLatch = false) (hp : t.pfw = false) :
    t.endOperation j r none f =
      { t.endedWith j (o.record r none f t.epochOrZero) with operating := .running, recoveryMark := none } := by
  simp [State.endOperation, ho, hor, State.endStartRunning, State.writeCompletion, State.setJournal, State.settleLatch,
    hl, State.enterRunning, hp, State.endedWith, State.epochOrZero]

/-- Any other long operation ends with the latch settled (R70, R72); an APPLY that leaves UNCONFIGURED is apart. -/
theorem State.endOperation_link (t : State) (o : LongOp) (j : JournalState) (r : OpResult) (reason : Option Reason)
    (f : Option FaultKind) (ho : t.longOp = some o) (hor : o.origin ≠ .start)
    (hu : t.operating ≠ .unconfigured ∨ t.active = none) :
    t.endOperation j r reason f = (t.endedWith j (o.record r reason f t.epochOrZero)).settleLatch := by
  simp only [State.endOperation, ho]
  rw [if_neg hor]
  have h1 : ∀ u : State, (u.operating ≠ .unconfigured ∨ u.active = none) →
      u.settleLatch.leaveUnconfigured = u.settleLatch := by
    intro u hu
    unfold State.leaveUnconfigured
    rw [if_neg]
    rcases hu with h | h <;> simp [h]
  rw [h1 _ (by simpa [State.writeCompletion, State.setJournal] using hu)]
  rfl

/-- The start's rollback that fails ends the start in RUNNING with the header mark that its scan's stop has set, when no
request is latched and PFW is deasserted (R17, R80, R81). -/
theorem State.failOperation_start (t : State) (o : LongOp) (j : JournalState) (kind : FaultKind)
    (ho : t.longOp = some o) (hor : o.origin = .start) (hl : t.ckptLatch = false) (hp : t.pfw = false) :
    t.failOperation j kind =
      { t.endedWith j (o.record .failed none (some kind) t.epochOrZero) with
        operating := .running, headerMark := t.recoveryMark.getD t.headerMark, recoveryMark := none } := by
  have hm : t.markUnexamined = { t with headerMark := t.recoveryMark.getD t.headerMark } := by simp [State.markUnexamined, ho, hor]
  rw [State.failOperation, hm,
    State.endOperation_start { t with headerMark := t.recoveryMark.getD t.headerMark } o j .failed (some kind) ho hor hl hp]
  rfl

/-- Any other long operation that fails keeps the header mark, and ends with the latch settled (R70, R72). -/
theorem State.failOperation_link (t : State) (o : LongOp) (j : JournalState) (kind : FaultKind) (ho : t.longOp = some o)
    (hor : o.origin ≠ .start) (hu : t.operating ≠ .unconfigured ∨ t.active = none) :
    t.failOperation j kind = (t.endedWith j (o.record .failed none (some kind) t.epochOrZero)).settleLatch := by
  have hm : t.markUnexamined = t := by simp [State.markUnexamined, ho, hor]
  rw [State.failOperation, hm, State.endOperation_link t o j .failed none (some kind) ho hor hu]

/-! ## The tables that a scan builds -/

/-- A row has no newest slot when no record is for it (R15). -/
theorem newestFrom_eq_none_iff (row : Nat) :
    ∀ (l : List SlotEntry) (k : Nat), newestFrom k l row = none ↔ ∀ e ∈ l, e.target ≠ row
  | [], k => by simp [newestFrom]
  | e :: r, k => by
    simp only [newestFrom]
    have ih := newestFrom_eq_none_iff row r (k + 1)
    cases h : newestFrom (k + 1) r row with
    | none => rw [h] at ih; simp at ih; by_cases he : e.target = row <;> simp [he]; exact ih
    | some j => rw [h] at ih; simp at ih; obtain ⟨x, hx, hy⟩ := ih; simp; intro _; exact ⟨x, hx, hy⟩

/-- The newest slot of a row holds a record for it, and no higher slot does (R15). -/
theorem newestFrom_eq_some_iff (row : Nat) : ∀ (l : List SlotEntry) (k j : Nat), newestFrom k l row = some j ↔
    k ≤ j ∧ (∃ e, l[j - k]? = some e ∧ e.target = row) ∧ ∀ m e, j - k < m → l[m]? = some e → e.target ≠ row
  | [], k, j => by simp [newestFrom]
  | e :: r, k, j => by
    simp only [newestFrom]
    have ih := newestFrom_eq_some_iff row r (k + 1)
    cases h : newestFrom (k + 1) r row with
    | none =>
      have hn := (newestFrom_eq_none_iff row r (k + 1)).mp h
      by_cases he : e.target = row
      · simp only [he, if_true]
        constructor
        · rintro ⟨⟩
          refine ⟨le_refl _, ⟨e, by simp, he⟩, ?_⟩
          intro m x hm hx
          rcases m with _ | m
          · omega
          · simp at hx; exact hn x (List.mem_of_getElem? hx)
        · rintro ⟨h1, ⟨x, hx, hy⟩, h3⟩
          rcases hd : j - k with _ | d
          · congr 1; omega
          · rw [hd] at hx; simp at hx; exact absurd hy (hn x (List.mem_of_getElem? hx))
      · simp only [he, if_false]
        constructor
        · intro h; cases h
        · rintro ⟨h1, ⟨x, hx, hy⟩, h3⟩
          rcases hd : j - k with _ | d
          · rw [hd] at hx; simp at hx; subst hx; exact absurd hy he
          · rw [hd] at hx; simp at hx; exact absurd hy (hn x (List.mem_of_getElem? hx))
    | some i =>
      obtain ⟨g1, ⟨y, gy, gz⟩, g3⟩ := (ih i).mp h
      constructor
      · intro hij
        obtain rfl : i = j := Option.some.inj hij
        refine ⟨by omega, ⟨y, ?_, gz⟩, ?_⟩
        · rw [show i - k = (i - (k + 1)) + 1 by omega]; simpa using gy
        · intro m x hm hx
          rcases m with _ | m
          · omega
          · simp at hx; exact g3 m x (by omega) hx
      · rintro ⟨h1, ⟨x, hx, hxt⟩, h3⟩
        show some i = some j
        congr 1
        have hik : i - k = (i - (k + 1)) + 1 := by omega
        by_contra hne
        rcases Nat.lt_or_gt_of_ne hne with hlt | hgt
        · rcases hd : j - k with _ | d
          · omega
          · rw [hd] at hx; simp at hx; exact absurd hxt (g3 d x (by omega) hx)
        · exact absurd gz (h3 (i - k) y (by omega) (by rw [hik]; simpa using gy))

/-- An index built from a run of slots names the newest one, and otherwise what it named before (R79). -/
theorem indexGet_indexFrom (row : Nat) : ∀ (l : List SlotEntry) (k : Nat) (ix : List (Nat × Nat)),
    indexGet (indexFrom k ix l) row = match newestFrom k l row with | some j => some j | none => indexGet ix row
  | [], k, ix => by simp [indexFrom, newestFrom]
  | e :: r, k, ix => by
    simp only [indexFrom, newestFrom, indexGet_indexFrom row r (k + 1)]
    cases newestFrom (k + 1) r row with
    | some j => simp
    | none =>
      by_cases he : e.target = row
      · simp [he, indexGet_indexSet_same]
      · simp [he, indexGet_indexSet_other _ _ _ (Ne.symm he)]

/-- The index that a start builds is in row order and names the newest slot of every row (R15, R79). -/
theorem indexFrom_names_newest (l : List SlotEntry) :
    indexRising (indexFrom 0 [] l) ∧ ∀ r, indexGet (indexFrom 0 [] l) r = newestSlot l r := by
  refine ⟨indexRising_indexFrom l 0 [] List.Pairwise.nil, fun r => ?_⟩
  rw [indexGet_indexFrom]; unfold newestSlot; cases newestFrom 0 l r <;> simp [indexGet]

end Sys2Proof.Machine
end

