-- ==== Sys2Proof/Laws/Jobs.lean ====
section
/-! SUPPORT. What a FRONT row operation gives the job in progress when it ends, how a write job and a long operation of
UNCONFIGURED end, and what the row records of a job give its next row operation: one lemma for each, so that a proof
about a step of a job unfolds only its own stage. -/
namespace Sys2Proof.Machine

/-! ## The row records -/

/-- The first row record from number i on that p holds of: it is one, and none before it is. -/
theorem nextRow_eq_some_iff (p : JobRow → Bool) (rows : List JobRow) (i k : Nat) :
    nextRow p rows i = some k ↔
      i ≤ k ∧ (∃ q, rows[k]? = some q ∧ p q = true) ∧ ∀ m q, i ≤ m → m < k → rows[m]? = some q → p q = false := by
  unfold nextRow
  rw [List.find?_range_eq_some]
  simp only [Bool.and_eq_true, decide_eq_true_eq, List.mem_range, Bool.not_eq_true', Bool.and_eq_false_iff,
    decide_eq_false_iff_not]
  constructor
  · rintro ⟨⟨h1, h2⟩, hk, h3⟩
    rcases hq : rows[k]? with _ | q
    · simp [hq] at h2
    · simp only [hq, Option.map_some, Option.getD_some] at h2
      refine ⟨h1, ⟨q, rfl, h2⟩, fun m x hm hmk hx => ?_⟩
      rcases h3 m hmk with h | h
      · omega
      · simpa [hx] using h
  · rintro ⟨h1, ⟨q, hq, hp⟩, h3⟩
    have hk : k < rows.length := (List.getElem?_eq_some_iff.mp hq).1
    refine ⟨⟨h1, by simp [hq, hp]⟩, hk, fun m hmk => ?_⟩
    by_cases hm : i ≤ m
    · right
      rcases hx : rows[m]? with _ | x
      · rfl
      · simpa using h3 m x hm hmk hx
    · left; exact hm

/-- There is no such row record when p holds of none from number i on. -/
theorem nextRow_eq_none_iff (p : JobRow → Bool) (rows : List JobRow) (i : Nat) :
    nextRow p rows i = none ↔ ∀ m q, i ≤ m → rows[m]? = some q → p q = false := by
  unfold nextRow
  rw [List.find?_eq_none]
  simp only [List.mem_range, Bool.and_eq_true, decide_eq_true_eq, not_and, Bool.not_eq_true]
  constructor
  · intro h m q hm hq
    have := h m (List.getElem?_eq_some_iff.mp hq).1 hm
    simpa [hq] using this
  · intro h m hm hi
    have hq : rows[m]? = some rows[m] := List.getElem?_eq_getElem hm
    simpa [hq] using h m _ hi hq

/-- A search that asks only for what a read does not change finds the same row record after the read. -/
theorem nextRow_set (p : JobRow → Bool) (rows : List JobRow) (i k : Nat) (r r' : JobRow) (hr : rows[k]? = some r)
    (h : p r' = p r) : nextRow p (rows.set k r') i = nextRow p rows i := by
  unfold nextRow
  rw [List.length_set]
  congr 1
  funext m
  by_cases hm : k = m
  · subst hm
    obtain ⟨hk, hrk⟩ := List.getElem?_eq_some_iff.mp hr
    simp [hk, h, hrk]
  · simp [hm]

/-- The read of a row record sets its result, and changes no other record (R136, R143). -/
theorem Job.withResult_rows (j : Job) (i : Nat) (r : JobRow) (read : RowRead) (h : j.rows[i]? = some r) :
    (j.withResult i read).rows = j.rows.set i { r with result := some read } := by
  unfold Job.withResult
  simp only
  apply List.ext_getElem?
  intro m
  obtain ⟨hi, rfl⟩ := List.getElem?_eq_some_iff.mp h
  by_cases hm : i = m
  · subst hm; simp [hi]
  · simp [hm]

theorem Job.rowNumber_of (j : Job) (i : Nat) (r : JobRow) (h : j.rows[i]? = some r) : j.rowNumber i = r.row := by
  simp [Job.rowNumber, h]

/-- A row with every byte enabled is written whole, whatever was read (R141). -/
theorem mergeBytes_full (old new : RowData) : mergeBytes old new 0xFFFF#16 = new := by
  have h : ∀ j, j < 16 → (0xFFFF#16).getLsbD j = true := by decide
  unfold mergeBytes packBytes rowByte
  simp only [List.range_succ, List.range_zero, List.map_append, List.map_cons, List.map_nil, List.foldl_append,
    List.foldl_cons, List.foldl_nil, h, List.nil_append, if_true, Nat.reduceLT, Nat.reduceSub, Nat.reduceMul]
  apply BitVec.eq_of_getLsbD_eq
  intro i hi
  simp only [BitVec.getLsbD_or, BitVec.getLsbD_shiftLeft, BitVec.getLsbD_setWidth, BitVec.getLsbD_extractLsb',
    BitVec.getLsbD_zero]
  interval_cases i <;> simp

/-! ## The result reaches the job -/

/-- A read of FRONT that completes gives the job the row (R148). -/
theorem exec_of_frontReads {s : State} {j row x} (h : s.frontReads j row x) :
    exec (.memoryAttemptDone none) s = .next (s.portFreed.deliverFront (.done x)) := by
  obtain ⟨_, hx, f, hp, hr, ho⟩ := h
  simp only [exec, execMemoryAttemptDone, hp, ho, completeAttempt, State.finishOperation, hr, State.deliver, hx]
  rfl

/-- A write of FRONT that completes gives the job the row written (R148). -/
theorem exec_of_frontWrites {s : State} {j row content} (h : s.frontWrites j row content) :
    exec (.memoryAttemptDone none) s = .next ((s.wrote row content).deliverFront (.done content)) := by
  obtain ⟨_, f, hp, hr, ho⟩ := h
  simp only [exec, execMemoryAttemptDone, hp, ho, completeAttempt, State.finishOperation, hr, State.deliver]
  rfl

/-- A row operation of FRONT that fails for good gives the job the kind of its last attempt (R152). -/
theorem exec_of_frontFails {s : State} {j : Job} {op : RowOp} {c : Instr} {left : Residue} {kind : FaultKind}
    (h : s.frontFails j op c left kind) :
    ∃ m : MemFault, m.kind = kind ∧
      exec c s = .next ((match op with
        | .read _ => s.portFreed
        | .write row content => s.wroteInPart row content left).deliverFront (.failed m)) := by
  obtain ⟨_, f, hr, rfl, ha, ⟨rfl, hp, rfl⟩ | ⟨rfl, hp, rfl⟩⟩ := h
  · refine ⟨.fail, rfl, ?_⟩
    simp only [exec, execMemoryAttemptFail, hp, State.leaveResidue]
    cases f.op <;>
      (simp only [State.attemptFailed, State.finishOperation, hr, State.deliver]
       rw [if_neg (by omega)]
       rfl)
  · refine ⟨.timeout, rfl, ?_⟩
    simp only [exec, execAbortAcknowledge, hp, State.leaveResidue]
    cases f.op <;>
      (simp only [State.attemptFailed, State.finishOperation, hr, State.deliver]
       rw [if_neg (by omega)]
       rfl)

/-! ## Ends -/

/-- A write job ends with its entry at the head of the queue (R144). -/
theorem State.endWriteJob_eq (s : State) (e : Entry) (rest : List Entry) (okay : Bool) (hq : s.queue = e :: rest) :
    s.endWriteJob okay = s.writeJobEnded e rest okay := by
  have h : ∀ u : State, { u.acceptHeldWrite with job := none } = { u with job := none }.acceptHeldWrite := by
    intro u
    have hr : ({ u with job := none } : State).queueHasRoom = u.queueHasRoom := rfl
    have ho : ({ u with job := none } : State).acceptanceOpen = u.acceptanceOpen := rfl
    unfold State.acceptHeldWrite
    rw [hr, ho]
    rcases hh : u.held with _ | (_ | ⟨address, beats⟩) <;> dsimp only
    · rw [hh]
    · rw [hh]
    · split
      · rfl
      · rw [hh]
  unfold State.endWriteJob State.retireHead State.writeJobEnded
  simp only [hq]
  rw [h]
  congr 2
  rcases e.mark with _ | _ <;> simp [State.answer]

/-- A write job that is refused or fails files its record and ends (R144, R145). -/
theorem State.refuseWriteJob_eq (s : State) (j : Job) (kind : FaultKind) (row : Nat) (slot : Option Nat)
    (partialDone : Bool) (e : Entry) (rest : List Entry) (hq : s.queue = e :: rest) :
    s.refuseWriteJob j kind row slot partialDone =
      (s.file (jobFault kind j.request.address row slot s.epochOrZero (j.mark == some .posted)
        partialDone)).writeJobEnded e rest false :=
  State.endWriteJob_eq _ e rest false (by simp [hq])

/-- The job that a write job's end clears does not matter to its end. -/
theorem State.file_withJob_ended (s : State) (j : Option Job) (f : FaultRecord) (e : Entry) (rest : List Entry)
    (okay : Bool) : (({ s with job := j } : State).file f).writeJobEnded e rest okay =
      (s.file f).writeJobEnded e rest okay := by
  unfold State.file State.writeJobEnded
  dsimp only
  split <;> rfl

/-- An APPLY that has made a configuration active leaves UNCONFIGURED as it ends, when no request is latched and no
head waits (R82, R174). -/
theorem State.endOperation_leaves (t : State) (o : LongOp) (j : JournalState) (r : OpResult) (reason : Option Reason)
    (f : Option FaultKind) (ho : t.longOp = some o) (hor : o.origin ≠ .start) (hu : t.operating = .unconfigured)
    (ha : t.active ≠ none) (hl : t.ckptLatch = false) (hq : ¬ t.headParked) :
    t.endOperation j r reason f =
      { t.endedWith j (o.record r reason f t.epochOrZero) with
        operating := if t.pfw then .quiescing else .running } := by
  have hw : t.headWaits = false := by
    unfold State.headWaits
    rcases hqq : t.queue with _ | ⟨e, rest⟩
    · rfl
    · have : e.state ≠ .spaceWait := fun h => hq ⟨e, by simp [hqq], h⟩
      simpa using this
  have hs : t.active.isSome = true := by rcases h : t.active with _ | c <;> simp_all
  simp only [State.endOperation, ho]
  rw [if_neg hor]
  rcases hp : t.pfw with _ | _ <;>
    simp [State.settleLatch, State.writeCompletion, State.setJournal, hl, State.leaveUnconfigured, hu, hs,
      State.enterRunning, hp, State.enterQuiescing, State.dropIfWaiting, State.endedWith, State.epochOrZero]
  intro h
  exact absurd h (by unfold State.headWaits at hw ⊢; simpa using hw)

/-- An APPLY that fails after it has made a configuration active leaves UNCONFIGURED too, and keeps the header mark
(R82, R174). -/
theorem State.failOperation_leaves (t : State) (o : LongOp) (j : JournalState) (kind : FaultKind)
    (ho : t.longOp = some o) (hor : o.origin ≠ .start) (hu : t.operating = .unconfigured) (ha : t.active ≠ none)
    (hl : t.ckptLatch = false) (hq : ¬ t.headParked) :
    t.failOperation j kind =
      { t.endedWith j (o.record .failed none (some kind) t.epochOrZero) with
        operating := if t.pfw then .quiescing else .running } := by
  have hm : t.markUnexamined = t := by simp [State.markUnexamined, ho, hor]
  rw [State.failOperation, hm, State.endOperation_leaves t o j .failed none (some kind) ho hor hu ha hl hq]

end Sys2Proof.Machine
end

