-- ==== Sys2Proof/Laws/PerInstr.lean ====
section
/-! SUPPORT. The families of statements made for every command: LinkFrame says what code byte and arguments spell a
link command (R178, R202). -/
namespace Sys2Proof.Laws.LinkFrame

/-- The body of a command's frame, when the command travels on the link, is a code byte that names it and as many
argument bytes as that code takes (R178, R202). -/
def Statement (i : Instr) : Prop :=
  ∀ body, commandBody i = some body →
    ∃ code args, body = code :: args ∧ argumentCount code = some args.length ∧ commandOf code args = some i
      ∧ code ≠ 0x5A#8

theorem frontReadRequest (address : Address) (beats : Nat) : Statement (.frontReadRequest address beats) := by
  intro body h
  cases h

theorem frontWriteRequest (address : Address) (beats : List Beat) : Statement (.frontWriteRequest address beats) := by
  intro body h
  cases h

theorem heldWriteAccept : Statement .heldWriteAccept := by
  intro body h
  cases h

theorem holdTimerExpiry : Statement .holdTimerExpiry := by
  intro body h
  cases h

theorem jobTake : Statement .jobTake := by
  intro body h
  cases h

theorem memoryAttemptDone (delivered : Option Row) : Statement (.memoryAttemptDone delivered) := by
  intro body h
  cases h

theorem memoryAttemptFail (left : Residue) : Statement (.memoryAttemptFail left) := by
  intro body h
  cases h

theorem attemptTimerExpiry : Statement .attemptTimerExpiry := by
  intro body h
  cases h

theorem abortAcknowledge (left : Residue) : Statement (.abortAcknowledge left) := by
  intro body h
  cases h

theorem drainEnd : Statement .drainEnd := by
  intro body h
  cases h

theorem applyActivation : Statement .applyActivation := by
  intro body h
  cases h

theorem freezeDeferredDecision : Statement .freezeDeferredDecision := by
  intro body h
  cases h

theorem quiescedEntry : Statement .quiescedEntry := by
  intro body h
  cases h

theorem ckptEdge : Statement .ckptEdge := by
  intro body h
  cases h

theorem pfwAssert : Statement .pfwAssert := by
  intro body h
  cases h

theorem pfwDeassert : Statement .pfwDeassert := by
  intro body h
  cases h

theorem rstAssert (left : Residue) : Statement (.rstAssert left) := by
  intro body h
  cases h

theorem start (ckptHigh : Bool) : Statement (.start ckptHigh) := by
  intro body h
  cases h

theorem responseRead (clocked : Nat) : Statement (.responseRead clocked) := by
  intro body h
  cases h

theorem frameError (bytes : List Byte) (cut : Bool) : Statement (.frameError bytes cut) := by
  intro body h
  cases h

theorem unknownCommand (bytes : List Byte) : Statement (.unknownCommand bytes) := by
  intro body h
  cases h

theorem status : Statement .status := by
  intro body h
  cases h
  exact ⟨_, _, rfl, rfl, rfl, by decide⟩

theorem ident : Statement .ident := by
  intro body h
  cases h
  exact ⟨_, _, rfl, rfl, rfl, by decide⟩

theorem completion : Statement .completion := by
  intro body h
  cases h
  exact ⟨_, _, rfl, rfl, rfl, by decide⟩

theorem faultPop : Statement .faultPop := by
  intro body h
  cases h
  exact ⟨_, _, rfl, rfl, rfl, by decide⟩

theorem cfgRead (selector identifier : Byte) : Statement (.cfgRead selector identifier) := by
  intro body h
  cases h
  exact ⟨_, _, rfl, rfl, rfl, by decide⟩

theorem cfgStage (identifier : Byte) (value : Word) : Statement (.cfgStage identifier value) := by
  intro body h
  cases h
  refine ⟨_, _, rfl, rfl, ?_, by decide⟩
  have hv : value.extractLsb' 24 8 ++ value.extractLsb' 16 8 ++ value.extractLsb' 8 8 ++ value.extractLsb' 0 8 = value := by
    ext k hk
    simp only [BitVec.getElem_append, BitVec.getElem_extractLsb']
    split <;> (try split) <;> (try split) <;> (rw [← BitVec.getLsbD_eq_getElem]; congr 1; omega)
  show some (Instr.cfgStage identifier _) = _
  rw [hv]

theorem cfgCopy : Statement .cfgCopy := by
  intro body h
  cases h
  exact ⟨_, _, rfl, rfl, rfl, by decide⟩

theorem alertMask (mask : Byte) : Statement (.alertMask mask) := by
  intro body h
  cases h
  exact ⟨_, _, rfl, rfl, rfl, by decide⟩

theorem freeze (region : Byte) : Statement (.freeze region) := by
  intro body h
  cases h
  exact ⟨_, _, rfl, rfl, rfl, by decide⟩

theorem save : Statement .save := by
  intro body h
  cases h
  exact ⟨_, _, rfl, rfl, rfl, by decide⟩

theorem release : Statement .release := by
  intro body h
  cases h
  exact ⟨_, _, rfl, rfl, rfl, by decide⟩

theorem undo : Statement .undo := by
  intro body h
  cases h
  exact ⟨_, _, rfl, rfl, rfl, by decide⟩

theorem commit : Statement .commit := by
  intro body h
  cases h
  exact ⟨_, _, rfl, rfl, rfl, by decide⟩

theorem rollback : Statement .rollback := by
  intro body h
  cases h
  exact ⟨_, _, rfl, rfl, rfl, by decide⟩

theorem resume (skip : Byte) : Statement (.resume skip) := by
  intro body h
  cases h
  exact ⟨_, _, rfl, rfl, rfl, by decide⟩

theorem format : Statement .format := by
  intro body h
  cases h
  exact ⟨_, _, rfl, rfl, rfl, by decide⟩

theorem apply : Statement .apply := by
  intro body h
  cases h
  exact ⟨_, _, rfl, rfl, rfl, by decide⟩

end Sys2Proof.Laws.LinkFrame
end

