-- ==== Sys2Proof/Laws/Waiting.lean ====
section
/-! SUPPORT. A head in space-wait: what the drop of QUIESCING does to it, what the drain of a long operation does to it,
and what the settling of the CKPT latch leaves of the queue; how RUNNING is entered, and with it every end of the start
and of a long operation; one lemma for each. -/
namespace Sys2Proof.Machine

/-! ## The drop of QUIESCING -/

/-- QUIESCING drops a head in space-wait with every entry behind it (R84). -/
theorem State.dropIfWaiting_waiting (s : State) (h : Entry) (rest : List Entry) (hq : s.queue = h :: rest)
    (hs : h.state = .spaceWait) (ho : s.operating = .quiescing) : s.dropIfWaiting = s.headDropped h rest := by
  have hw : s.headWaits = true := by simp [State.headWaits, hq, hs]
  simp only [State.dropIfWaiting, ho, hw, State.dropQueue, hq, State.headDropped, decide_true, if_true,
    Bool.and_self]
  rcases hm : h.mark <;> simp [rowOf, State.answer]

/-- Outside QUIESCING, or with no head in space-wait, nothing is dropped (R84). -/
theorem State.dropIfWaiting_eq_self (s : State) (ho : s.operating ≠ .quiescing ∨ ¬ s.headParked) :
    s.dropIfWaiting = s := by
  unfold State.dropIfWaiting
  rw [if_neg]
  intro hc
  simp only [Bool.and_eq_true, decide_eq_true_eq] at hc
  rcases ho with h | h
  · exact h hc.1
  · apply h
    have h2 := hc.2
    unfold State.headWaits at h2
    rcases hq : s.queue with _ | ⟨e, r⟩
    · simp [hq] at h2
    · exact ⟨e, by simp [hq], by simpa [hq] using h2⟩

/-! ## RUNNING is entered -/

/-- RUNNING is entered, and QUIESCING at once while PFW is asserted (R81 to R84). -/
theorem State.enterRunning_eq (s : State) : s.enterRunning = s.runningEntered := by
  unfold State.enterRunning State.runningEntered State.enterQuiescing
  dsimp only
  split
  · rcases hq : s.queue with _ | ⟨h, rest⟩
    · exact State.dropIfWaiting_eq_self _ (.inr (by rintro ⟨e, he, _⟩; simp at he))
    · dsimp only
      split
      · next hs => exact State.dropIfWaiting_waiting _ h rest rfl hs rfl
      · next hs =>
        refine State.dropIfWaiting_eq_self _ (.inr ?_)
        rintro ⟨e, he, hw⟩
        simp only [List.head?_cons, Option.some.injEq] at he
        exact hs (he ▸ hw)
  · rfl

/-- The start ends in RUNNING (R81). -/
theorem State.endStartRunning_eq (s : State) : s.endStartRunning = s.startEnded := State.enterRunning_eq _

/-- The settling of the latch leaves the operating state and the active configuration (R72). -/
theorem State.settleLatch_leaveUnconfigured (s : State) : s.settleLatch.leaveUnconfigured = s.linkEnded := by
  unfold State.leaveUnconfigured State.linkEnded
  rw [State.enterRunning_eq]
  have h1 : s.settleLatch.operating = s.operating := by simp
  have h2 : s.settleLatch.active = s.active := by simp
  simp only [h1, h2, Bool.and_eq_true, decide_eq_true_eq, Option.isSome_iff_ne_none]

/-- The start's rollback ends the start (R70, R81). -/
theorem State.endOperation_startEnded (t : State) (o : LongOp) (j : JournalState) (r : OpResult)
    (reason : Option Reason) (f : Option FaultKind) (ho : t.longOp = some o) (hor : o.origin = .start) :
    t.endOperation j r reason f =
      ({ t.endedWith j (o.record r reason f t.epochOrZero) with recoveryMark := none } : State).startEnded := by
  simp only [State.endOperation, ho]
  rw [if_pos hor, State.endStartRunning_eq]
  rfl

/-- Any other long operation ends with the latch settled, and leaves UNCONFIGURED when it has made a configuration
active (R70, R72, R82). -/
theorem State.endOperation_linkEnded (t : State) (o : LongOp) (j : JournalState) (r : OpResult)
    (reason : Option Reason) (f : Option FaultKind) (ho : t.longOp = some o) (hor : o.origin ≠ .start) :
    t.endOperation j r reason f = (t.endedWith j (o.record r reason f t.epochOrZero)).linkEnded := by
  simp only [State.endOperation, ho]
  rw [if_neg hor, State.settleLatch_leaveUnconfigured]
  rfl

/-- The start's rollback that fails ends the start with the header mark that its scan's stop has set (R17, R80,
R81). -/
theorem State.failOperation_startEnded (t : State) (o : LongOp) (j : JournalState) (kind : FaultKind)
    (ho : t.longOp = some o) (hor : o.origin = .start) :
    t.failOperation j kind =
      ({ t.endedWith j (o.record .failed none (some kind) t.epochOrZero) with
        headerMark := t.recoveryMark.getD t.headerMark, recoveryMark := none } : State).startEnded := by
  have hm : t.markUnexamined = { t with headerMark := t.recoveryMark.getD t.headerMark } := by
    simp [State.markUnexamined, ho, hor]
  rw [State.failOperation, hm, State.endOperation_startEnded
    { t with headerMark := t.recoveryMark.getD t.headerMark } o j .failed none (some kind) ho hor]
  rfl

/-- Any other long operation that fails keeps the header mark (R70, R72, R82). -/
theorem State.failOperation_linkEnded (t : State) (o : LongOp) (j : JournalState) (kind : FaultKind)
    (ho : t.longOp = some o) (hor : o.origin ≠ .start) :
    t.failOperation j kind = (t.endedWith j (o.record .failed none (some kind) t.epochOrZero)).linkEnded := by
  have hm : t.markUnexamined = t := by simp [State.markUnexamined, ho, hor]
  rw [State.failOperation, hm, State.endOperation_linkEnded t o j .failed none (some kind) ho hor]

/-! ## The drain -/

/-- The head in space-wait is discarded alone, when no other entry is in space-wait (R47, R126). -/
theorem State.discardWaitingHead_eq (s : State) (o : LongOp) (h : Entry) (rest : List Entry) (hq : s.queue = h :: rest)
    (hs : h.state = .spaceWait) (hrest : ∀ e ∈ rest, e.state ≠ .spaceWait) (ho : s.longOp = some o) :
    s.discardWaitingHead =
      ({ s with
        queue := rest, parked := none, headHeld := false
        longOp := some { o with discarded := o.discarded + 1 }
        frontResponse := if h.mark = .posted then s.frontResponse else some { okay := true, beats := [] } } :
          State).acceptHeldWrite := by
  have h1 : (h :: rest).filter (fun e => !(e.state == .spaceWait)) = rest := by
    rw [List.filter_cons]
    simp [hs]
    intro e he
    exact hrest e he
  have h2 : (h :: rest).filter (fun e => e.state == .spaceWait) = [h] := by
    rw [List.filter_cons]
    simp [hs]
    intro e he
    exact hrest e he
  unfold State.discardWaitingHead State.discard
  rw [hq, h1, h2]
  simp only [List.any_cons, hs, List.any_nil, List.head?_cons]
  rcases hm : h.mark <;> simp [State.answer, State.count, ho, hs]

/-- An operation refused while its journal drains returns the journal to OPEN (R49). -/
theorem State.refuseOperation_draining (s : State) (o : LongOp) (reason : Reason) (ho : s.longOp = some o)
    (hor : o.origin ≠ .start) (hj : s.journal = .draining) (hu : s.operating ≠ .unconfigured) :
    s.refuseOperation reason =
      (s.endedWith .opened (o.record .refused (some reason) none s.epochOrZero)).settleLatch := by
  unfold State.refuseOperation
  rw [State.endOperation_link s o _ _ _ _ ho hor (.inl hu)]
  simp [State.journalBefore, hj]

/-- A drain whose head does not wait in space ahead of the boundary does nothing about it (R47 to R49). -/
theorem State.drainAction_eq_self (s : State) (h : s.longOp = none ∨ s.headWaitsAhead = false) :
    s.drainAction = s := by
  unfold State.drainAction
  rcases ho : s.longOp with _ | o
  · rfl
  · rcases h with h | h
    · exact absurd (h.symm.trans ho) (by simp)
    · simp [h]

/-! ## The settling of the CKPT latch -/

/-- The carry returns the head to NOT_STARTED and leaves the rest of the queue (R127). -/
theorem State.carry_queue (s : State) (h : Entry) (rest : List Entry) (hq : s.queue = h :: rest) :
    s.carry.queue = { h with state := .notStarted } :: rest := by
  simp [State.carry, hq, State.count]

/-- A COMMIT as it is taken leaves the queue as it was, or carries its head (R48). -/
theorem State.takeCommit_queue (s : State) (origin : Origin) :
    (s.takeCommit origin).queue = s.queue
      ∨ ∃ h rest, s.queue = h :: rest ∧ (s.takeCommit origin).queue = { h with state := .notStarted } :: rest := by
  have hu : (s.startOperation .commit origin false).queue = s.queue := by simp
  unfold State.takeCommit
  dsimp only
  split
  · next hw =>
    rcases hq : s.queue with _ | ⟨h, rest⟩
    · rw [hq] at hu
      rw [State.headWaitsAhead, hu] at hw
      exact absurd hw (by simp)
    · exact .inr ⟨h, rest, rfl, State.carry_queue _ h rest (hu.trans hq)⟩
  · exact .inl hu

/-- The settling leaves the queue as it was, or a COMMIT carries its head (R48, R72). -/
theorem State.settleLatch_queue (s : State) :
    s.settleLatch.queue = s.queue
      ∨ ∃ h rest, s.queue = h :: rest ∧ s.settleLatch.queue = { h with state := .notStarted } :: rest := by
  unfold State.settleLatch
  split
  · dsimp only
    split
    · exact State.takeCommit_queue _ .line
    · exact .inl (by simp)
  · exact .inl rfl

end Sys2Proof.Machine
end

