-- ==== Sys2Proof/Tests/Slice0.lean ====
section
/-! SUPPORT. The model's own tests: ill-formed commands, the spec's test vectors and example frames, single steps, and
for every statement with hypotheses a concrete state and operands that meet them. -/
namespace Sys2Proof.Tests
open Sys2Proof Sys2Proof.Machine

set_option Elab.async false

/-! ## Small states -/

/-- A region entry. -/
def regionT (base limit : Nat) (mode : RegionMode) : RegionEntry :=
  { base := BitVec.ofNat 24 base, limit := BitVec.ofNat 24 limit, mode := mode }

/-- A valid configuration: rows 32 to 62 journaled, 63 to 79 plain, 80 to 88 read-only, the journal in rows 101 to 134,
and 256 rows in all. -/
def configT : ConfigRecord :=
  { ConfigRecord.zero with
    signature := 0x3D94A07C#32, generation := 5#32, memSize := 256#32, base := 101#24, nSlots := 16#16
    watermark := 16#16, holdLimit := 50#16, timeout := 20#8, retries := 1#2
    regions := ((ConfigRecord.zero.regions.set 0 (regionT 32 62 .journaled)).set 1 (regionT 63 79 .plain)).set 2
      (regionT 80 88 .readOnly) }

/-- RUNNING with that configuration, the journal OPEN in epoch 7 and empty. -/
def runningT : State :=
  { State.reset with
    inReset := false, operating := .running, active := some configT, staging := configT, designation := some .a
    journal := .opened, epoch := some 7#32, anchorA := .valid 7#32, anchorB := .valid 6#32 }

/-- The byte address of a row. -/
def addressT (row : Nat) : Address := BitVec.ofNat 28 (16 * row)

/-- Beats with every byte enabled. -/
def beatsT (n : Nat) : List Beat := List.replicate n { enable := 0xF#4, data := 0xA5#32 }

/-- A queue entry that writes one whole row. -/
def entryT (row number : Nat) (mark : AckMode) (state : EntryState) : Entry :=
  { address := addressT row, beats := beatsT 4, number := BitVec.ofNat 32 number, mark := mark, state := state,
    timed := mark == .completed }

/-- A long operation waiting for its drain, with the journal in a state. -/
def waitingT (kind : OpKind) (journal : JournalState) : State :=
  { runningT with longOp := some (LongOp.created kind .link false), journal := journal }

/-- Two records, of rows 40 and 41. -/
def recordsT (s : State) : State :=
  { s with
    slots := [{ target := 40, backLink := none, side := 0#16 }, { target := 41, backLink := none, side := 0#16 }]
    slotHeaders := [{ imageBad := false, sequence := 0#32 }, { imageBad := false, sequence := 1#32 }]
    index := [(40, 0), (41, 1)] }

/-- A row operation in flight. -/
def flightT (r : Requester) (op : RowOp) (attempt : Nat) : Flight :=
  { requester := r, op := op, attempt := attempt, timeout := 20#8, retries := 1#2, last := none }

/-- A write job of row 40 of the journaled region, in a phase. -/
def jobT (phase : JobPhase) : Job :=
  { source := .queueHead 0#32, request := .write (addressT 40) (beatsT 4), mark := some .posted, region := 0
    mode := .journaled, frozen := false
    rows := [{ row := 40, data := 0#128, enables := 0xFFFF#16, cls := .full, needsRead := true, needsRecord := true
               result := some (.good { data := 1#128, side := 2#16 }) }]
    phase := phase }

/-- The next state of an outcome. -/
def nextOf : Host.Outcome State Fault Refusal → Option State
  | .next t => some t
  | .fault _ => none
  | .refused _ => none

theorem eq_next_of_nextOf {o : Host.Outcome State Fault Refusal} {t : State} (h : nextOf o = some t) : o = .next t := by
  cases o with
  | next u => exact congrArg Host.Outcome.next (Option.some.inj h)
  | fault f => cases h
  | refused r => cases h

/-! ## Ill-formed commands -/

theorem test_wf_read_beats : (Instr.frontReadRequest 0#28 0).wellFormed = false
    ∧ (Instr.frontReadRequest 0#28 9).wellFormed = false ∧ (Instr.frontReadRequest 0#28 1).wellFormed = true
    ∧ (Instr.frontReadRequest 0#28 8).wellFormed = true := by decide +kernel

theorem test_wf_write_beats : (Instr.frontWriteRequest 0#28 []).wellFormed = false
    ∧ (Instr.frontWriteRequest 0#28 (beatsT 9)).wellFormed = false
    ∧ (Instr.frontWriteRequest 0#28 (beatsT 8)).wellFormed = true := by decide +kernel

theorem test_wf_residue : (Instr.memoryAttemptFail (.torn 0#128 0#16)).wellFormed = false
    ∧ (Instr.abortAcknowledge (.torn 0#128 0#16)).wellFormed = false
    ∧ (Instr.rstAssert (.torn 0#128 0#16)).wellFormed = false
    ∧ (Instr.rstAssert (.torn 0#128 1#16)).wellFormed = true := by decide +kernel

theorem test_wf_link : (Instr.responseRead 0).wellFormed = false
    ∧ (Instr.frameError [0x10#8, 0x70#8] false).wellFormed = false
    ∧ (Instr.frameError [0x10#8, 0x71#8] false).wellFormed = true
    ∧ (Instr.unknownCommand [0x10#8, 0x70#8]).wellFormed = false
    ∧ (Instr.unknownCommand [0x00#8, 0x00#8]).wellFormed = true := by decide +kernel

/-! ## Test vectors and frames of the spec -/

/-- R92 and R177 give the checks of the string 123456789. -/
theorem test_check_vectors :
    frameCrc [0x31#8, 0x32#8, 0x33#8, 0x34#8, 0x35#8, 0x36#8, 0x37#8, 0x38#8, 0x39#8] = 0xF4#8
      ∧ crcFeed 0x1021#16 0x313233343536373839#72 72 0xFFFF#16 = 0x29B1#16 := by
  decide +kernel

/-- The frames of STATUS and of a response read, a cut transfer and a damaged one. -/
theorem test_transfers :
    decodeTransfer [0x10#8, 0x70#8] false = some .status ∧ decodeTransfer [0x5A#8, 0#8, 0#8] false = some (.responseRead 3)
      ∧ decodeTransfer [0x10#8, 0x70#8] true = some (.frameError [0x10#8, 0x70#8] true)
      ∧ decodeTransfer [0x10#8, 0x71#8] false = some (.frameError [0x10#8, 0x71#8] false)
      ∧ decodeTransfer [] true = none := by decide +kernel

/-- A CFG_STAGE value travels most significant byte first (R202). -/
theorem test_stage_frame :
    commandBody (.cfgStage 0x03#8 0x00000065#32) = some [0x21#8, 0x03#8, 0x00#8, 0x00#8, 0x00#8, 0x65#8] := by
  decide +kernel

theorem test_config_valid : configT.valid = true ∧ ({ configT with timeout := 0#8 } : ConfigRecord).valid = false
    ∧ ({ configT with nSlots := 15#16 } : ConfigRecord).valid = false
    ∧ classifyCopy ((List.range 16).map (configRowData configT)) = some configT := by decide +kernel

/-! ## The queue -/

theorem test_step_runs_front : step { runningT with pending := [.pfwAssert, .status] }
    = .next { runningT with pending := [.status], pfw := true, operating := .quiescing } :=
  eq_next_of_nextOf (by decide +kernel)

theorem test_step_idle : step State.reset = .next State.reset := rfl

theorem test_no_bits : decodeTableWord 16 0x7010 = none ∧ State.reset.withFetchWord 16 0x7010 = State.reset := by
  decide +kernel

/-! ## States that meet the hypotheses: the laws -/

/-- A journaled write in its target write, with its record in the table, one savepoint, and its completion waiting. -/
def lawfulT : State :=
  { recordsT runningT with
    job := some (jobT (.writing 0)), queue := [entryT 40 0 .posted .taken], nextAcceptance := 1#32
    port := .inFlight (flightT .front (.write 40 (freshRow 40 3#128)) 2), stack := [0], nextSequence := 2#32
    headerMark := 2, mem := [(40, { data := 1#128, side := 2#16 })], freeze := State.reset.freeze.set 1 true
    log := List.replicate 16 runningT.ckptFault, dropped := 255#8, pending := [.memoryAttemptDone none] }

/-- Every plain law holds of it, and a step has a next state. -/
theorem test_hyps_laws : lawfulT.memoryLaw ∧ lawfulT.logLaw ∧ lawfulT.queueLaw ∧ lawfulT.busLaw
    ∧ ∃ t, step lawfulT = .next t := by
  refine ⟨?_, ?_, ?_, ?_, _, rfl⟩
  · show _ = true
    decide +kernel
  · show _ ∧ _
    decide +kernel
  · show _ ≤ _
    decide +kernel
  · refine ⟨fun h => absurd h ?_, fun h => absurd h ?_, fun _ => ?_⟩ <;> decide +kernel

theorem test_hyps_indexLaw : lawfulT.indexLaw := by
  refine ⟨?_, fun row => ?_, fun k e h => ?_, fun k e h => ?_⟩
  · show List.Pairwise _ _
    decide +kernel
  · show indexGet [(40, 0), (41, 1)] row = newestSlot _ row
    simp only [lawfulT, recordsT, indexGet, newestSlot, newestFrom]
    by_cases h : row = 40
    · subst h; rfl
    · by_cases h' : row = 41
      · subst h'; rfl
      · simp [Ne.symm h, Ne.symm h']
  · rcases k with _ | _ | k
    · cases h; rfl
    · cases h; rfl
    · cases h
  · cases h

theorem test_hyps_portLaw : lawfulT.portLaw := by
  show _ ∧ _
  decide +kernel

theorem test_hyps_configLaw : lawfulT.configLaw := by
  unfold State.configLaw
  refine ⟨fun c h => ?_, fun c h => ?_, fun h => absurd h ?_, fun h => absurd h ?_, fun h => absurd h ?_⟩
  · obtain rfl : configT = c := Option.some.inj h
    decide +kernel
  · exact nomatch (show (none : Option ConfigRecord) = some c from h)
  · decide +kernel
  · decide +kernel
  · decide +kernel

theorem test_hyps_stackLaw : lawfulT.stackLaw := by
  refine ⟨?_, ?_, ?_, fun h => absurd h ?_⟩ <;> decide +kernel

theorem test_hyps_exclusionLaw : lawfulT.exclusionLaw := by
  refine ⟨fun h => absurd h ?_, fun h => absurd h ?_, fun h => absurd h ?_, fun h => absurd h ?_⟩ <;> decide +kernel

/-- An append writes the header of the last slot, with a record in every slot below it. -/
def appendT : State :=
  { runningT with
    slots := List.replicate 15 { target := 41, backLink := none, side := 0#16 }, nextSequence := 16#32
    slotHeaders := List.replicate 15 { imageBad := false, sequence := 0#32 }
    job := some (jobT (.appending 0 15 15#32 .headerWrite)), queue := [entryT 40 0 .posted .taken]
    port := .inFlight (flightT .front (.write 133 (freshRow 133 0#128)) 1) }

/-- A write job's read waits behind a row operation of MAINT. -/
def readingT : State :=
  { runningT with
    job := some (jobT (.reading 0)), queue := [entryT 40 0 .posted .taken]
    port := .inFlight (flightT .maint (.read 101) 1), waitFront := some (.read 40) }

theorem test_hyps_tailLaw : lawfulT.tailLaw ∧ appendT.tailLaw := by
  refine ⟨⟨?_, ?_, fun j hj r _ _ => ?_, fun j i slot sequence step hj hp => ?_, fun c h => ?_, fun k hs accepted h => ?_⟩,
    ?_, ?_, fun j hj r _ _ => ?_, fun j i slot sequence step hj hp => ?_, fun c h => ?_, fun k hs accepted h => ?_⟩
  · decide +kernel
  · decide +kernel
  · obtain rfl : jobT (.writing 0) = j := Option.some.inj hj
    rfl
  · obtain rfl : jobT (.writing 0) = j := Option.some.inj hj
    cases hp
  · cases h
  · cases h
  · decide +kernel
  · decide +kernel
  · obtain rfl : jobT (.appending 0 15 15#32 .headerWrite) = j := Option.some.inj hj
    rfl
  · obtain rfl : jobT (.appending 0 15 15#32 .headerWrite) = j := Option.some.inj hj
    cases hp
    exact ⟨rfl, by decide +kernel, by decide +kernel⟩
  · cases h
  · cases h

theorem test_hyps_frontLaw : lawfulT.frontLaw ∧ appendT.frontLaw ∧ readingT.frontLaw := by
  have hj : ∀ (s : State) (phase : JobPhase), s.journaledWriteJob = some (jobT phase) → s.reservedRow 40 = false →
      ∀ j, s.journaledWriteJob = some j → ∀ r ∈ j.rows, s.reservedRow r.row = false := by
    intro s phase h h40 j hj r hr
    obtain rfl : jobT phase = j := Option.some.inj (h.symm.trans hj)
    rcases List.mem_singleton.mp hr with rfl
    exact h40
  refine ⟨⟨by decide +kernel, fun op h => ⟨_, rfl, ?_⟩, hj _ (.writing 0) rfl (by decide +kernel)⟩,
    ⟨by decide +kernel, fun op h => ⟨_, rfl, ?_⟩, hj _ (.appending 0 15 15#32 .headerWrite) rfl (by decide +kernel)⟩,
    ⟨by decide +kernel, fun op h => ⟨_, rfl, ?_⟩, hj _ (.reading 0) rfl (by decide +kernel)⟩⟩
  · exact ⟨_, _, rfl, by decide +kernel, List.mem_singleton.mp h⟩
  · exact ⟨_, List.mem_singleton.mp h⟩
  · exact List.mem_singleton.mp h

theorem test_hyps_recordLaw : lawfulT.recordLaw := by
  intro j hj
  obtain rfl : jobT (.writing 0) = j := Option.some.inj hj
  refine ⟨fun k r hk _ => ?_, fun _ _ _ _ => ⟨0, rfl⟩⟩
  rcases k with _ | k
  · cases hk
    decide +kernel
  · cases hk

/-- The memory and the fault log can change: the row in flight is written, a 17th record is dropped. -/
theorem test_hyps_changes :
    (nextOf (exec (.memoryAttemptDone none) lawfulT)).map (fun t => (t.mem.read 40).data) = some 3#128
      ∧ (lawfulT.mem.read 40).data = 1#128 ∧ 16 ≤ lawfulT.log.length ∧ runningT.log.length < 16 := by decide +kernel

/-- A read changes its row when the device altered it, and only then. -/
theorem test_hyps_alteredRead :
    let s : State := { runningT with port := .inFlight (flightT .maint (.read 101) 1) }
    (nextOf (exec (.memoryAttemptDone (some (freshRow 101 3#128))) s)).map (fun t => t.mem.read 101)
      = some (freshRow 101 3#128) ∧ (s.mem.read 101) ≠ freshRow 101 3#128
    ∧ (nextOf (exec (.memoryAttemptDone none) s)).map State.mem = some s.mem := by decide +kernel

/-- A reset clears a set freeze flag. -/
theorem test_hyps_freezeCleared : lawfulT.freeze[(1 : Fin 16)] = true
    ∧ (nextOf (step { lawfulT with pending := [.rstAssert .former] })).map (fun t => t.freeze[(1 : Fin 16)])
      = some false := by decide +kernel

/-- A retry, and a final failure. -/
theorem test_hyps_retries : (flightT .front (.read 40) 1).attempt ≤ (flightT .front (.read 40) 1).retries.toNat
    ∧ (flightT .maint (.read 40) 2).retries.toNat < (flightT .maint (.read 40) 2).attempt := by decide +kernel

/-! ## Encodings and tables -/

/-- Each case of the frame checks occurs, the last with exactly the bytes its code takes. -/
theorem test_hyps_frameChecks :
    frameCrc [0x10#8, 0x71#8] ≠ 0#8 ∧ frameCrc [0x00#8, 0x00#8] = 0#8 ∧ argumentCount 0x00#8 = none
      ∧ frameCrc [0x10#8, 0x70#8] = 0#8 ∧ argumentCount 0x10#8 = some 0
      ∧ frameCrc [0x10#8, 0x00#8, frameCrc [0x10#8, 0x00#8]] = 0#8
      ∧ encodeFrame .status = some [0x10#8, 0x70#8] ∧ commandBody .status = some [0x10#8] := by decide +kernel

/-- The bounds of the configuration area, the journal area, the entries and the memory. -/
theorem test_hyps_lookups :
    runningT.lookup 0 = .reserved ∧ runningT.lookup 31 = .reserved ∧ runningT.lookup 32 = .entry 0
      ∧ runningT.lookup 62 = .entry 0 ∧ runningT.lookup 63 = .entry 1 ∧ runningT.lookup 88 = .entry 2
      ∧ runningT.lookup 89 = .notMapped ∧ runningT.lookup 100 = .notMapped ∧ runningT.lookup 101 = .reserved
      ∧ runningT.lookup 134 = .reserved ∧ runningT.lookup 135 = .notMapped ∧ runningT.memSize ≤ 256
      ∧ (∀ k : Fin 16, (runningT.regions[k]).covers 62 = true → k = 0)
      ∧ (∀ k : Fin 16, (runningT.regions[k]).covers 89 = false) := by decide +kernel

/-- Every outcome of an eight-beat request: rows 32 and 33, 62 and 63, 88 and 89, 90 and 91, 100 and 101, 134 and 135.
-/
theorem test_hyps_outcomes :
    runningT.outcomeOf (addressT 32) 8 = .entry 0 ∧ runningT.outcomeOf (addressT 62) 8 = .split 62
      ∧ runningT.outcomeOf (addressT 88) 8 = .notMapped 89 ∧ runningT.outcomeOf (addressT 90) 8 = .notMapped 90
      ∧ runningT.outcomeOf (addressT 100) 8 = .reserved 101 ∧ runningT.outcomeOf (addressT 134) 8 = .reserved 134
      ∧ runningT.outcomeOf (addressT 40) 4 = .entry 0 ∧ runningT.outcomeOf (addressT 89) 1 = .notMapped 89
      ∧ runningT.outcomeOf (addressT 101) 2 = .reserved 101 := by decide +kernel

/-- Each case of the classification. -/
theorem test_hyps_classify :
    (runningT.regions[(2 : Fin 16)]).mode = .readOnly ∧ lawfulT.freeze[(1 : Fin 16)] = true
      ∧ lawfulT.outcomeOf (addressT 63) 4 = .entry 1 ∧ runningT.outcomeOf (addressT 80) 4 = .entry 2
      ∧ runningT.classify (.write (addressT 40) (beatsT 4)) false = .proceed 0
      ∧ runningT.classify (.write (addressT 80) (beatsT 4)) false = .refuse .writeProtected 80
      ∧ (waitingT .commit .draining).classify (.write (addressT 40) (beatsT 4)) false = .hold
      ∧ ({ runningT with journal := .broken .rollBack } : State).classify (.read (addressT 40) 4) false
        = .refuse .journalUnavailable 40 := by decide +kernel

/-- The segment rule's two cases, and the space request's three answers. -/
theorem test_hyps_space :
    runningT.needsRecord 40 = true ∧ ({ lawfulT with stack := [1] } : State).needsRecord 40 = true
      ∧ lawfulT.needsRecord 40 = false ∧ nextRow JobRow.needsRecord (jobT (.reading 0)).rows 0 = some 0
      ∧ runningT.spaceGranted ((jobT (.reading 0)).rows.filter JobRow.needsRecord).length = true
      ∧ ({ runningT with exhausted := true } : State).spaceGranted
          ((jobT (.reading 0)).rows.filter JobRow.needsRecord).length = false
      ∧ configT.policy = .hold ∧ ({ configT with policy := .refuse } : ConfigRecord).policy = .refuse := by
  decide +kernel

/-- A head without space is parked, its read dropped. -/
theorem test_park :
    let s : State :=
      { runningT with
        exhausted := true, queue := [entryT 40 0 .posted .taken, entryT 41 1 .posted .notStarted]
        job := some (jobT (.reading 0)) }
    s.requestSpace (jobT (.reading 0))
      = { s with
          queue := [entryT 40 0 .posted .spaceWait, entryT 41 1 .posted .notStarted], job := none
          parked := some
            { jobT .parked with
              rows := [{ row := 40, data := 0#128, enables := 0xFFFF#16, cls := .full, needsRead := true
                         needsRecord := true, result := none }] } }
    ∧ s.deferredFreeze = none ∧ s.longOp = none ∧ s.operating ≠ .quiescing := by decide +kernel

/-- A long operation's drain with a head in space-wait ahead of its boundary, and one entry behind the head. -/
def parkedT (kind : OpKind) (stack : List Nat) : State :=
  { waitingT kind .draining with
    queue := [entryT 40 0 .posted .spaceWait, entryT 41 1 .posted .notStarted], nextAcceptance := 2#32
    mark := some 1#32, parked := some (jobT .parked), stack := stack }

/-- The drain carries the head of a COMMIT, discards that of a ROLLBACK or an UNDO, and ends a SAVE or an UNDO without a
savepoint early. -/
theorem test_drain_meets :
    (parkedT .commit []).ahead (entryT 40 0 .posted .spaceWait) = true
    ∧ (∀ e ∈ [entryT 41 1 .posted .notStarted], e.state ≠ .spaceWait)
    ∧ ((parkedT .commit []).spaceWaitEntered.longOp.map LongOp.carried,
        (parkedT .commit []).spaceWaitEntered.queue.map Entry.state) = (some 2, [.notStarted, .notStarted])
    ∧ ((parkedT .rollback []).spaceWaitEntered.longOp.map LongOp.discarded,
        (parkedT .rollback []).spaceWaitEntered.queue.length) = (some 1, 1)
    ∧ (parkedT .undo [0]).spaceWaitEntered.queue.length = 1
    ∧ ((parkedT .save []).spaceWaitEntered.completion.bind CompletionRecord.reason) = some .queueHeld
    ∧ ((parkedT .undo []).spaceWaitEntered.completion.bind CompletionRecord.reason) = some .noSavepoint := by
  decide +kernel

/-- A head in space-wait outside a drain stays, and is dropped in QUIESCING. After an early end the head still waits, or
the COMMIT of a PENDING latch has carried it. -/
theorem test_quiesce_meets :
    let s : State := { parkedT .save [] with longOp := none, mark := none }
    s.spaceWaitEntered = s
    ∧ { s with operating := .quiescing }.spaceWaitEntered.queue = []
    ∧ ((parkedT .save []).spaceWaitEntered.queue.head?.map Entry.state) = some .spaceWait
    ∧ (({ parkedT .save [] with ckptLatch := true } : State).spaceWaitEntered.queue.head?.map Entry.state)
      = some .notStarted := by decide +kernel

/-- Bursts at the ends of what is acceptable. -/
theorem test_hyps_bursts : burstAcceptable (addressT 62) 8 = true ∧ 31 < 4 * 8
    ∧ (((addressT 62).toNat + 31) / 16) ∈ rowsOf (addressT 62) 8 ∧ burstAcceptable 4#28 1 = true
    ∧ burstAcceptable 4#28 2 = false ∧ burstAcceptable 0#28 3 = false ∧ burstAcceptable 16#28 8 = false
    ∧ requestByte (addressT 62) (beatsT 8) (16 * 62 - 1) = (0#8, false)
    ∧ (requestByte (addressT 62) (beatsT 8) (16 * 62 + 31)).2 = true
    ∧ requestByte (addressT 62) (beatsT 8) (16 * 62 + 32) = (0#8, false) := by
  decide +kernel

/-! ## The front port -/

theorem test_hyps_takesRequests : runningT.takesRequests
    ∧ ({ runningT with queue := List.replicate 8 (entryT 40 0 .posted .notStarted) } : State).takesRequests := by
  refine ⟨⟨rfl, .inl rfl, rfl, rfl, ?_⟩, rfl, .inl rfl, rfl, rfl, ?_⟩ <;> decide +kernel

/-- A posted write joins the queue, and the answer is OKAY at once. -/
theorem test_posted_write :
    exec (.frontWriteRequest (addressT 40) (beatsT 4)) runningT = .next { runningT with
      queue := [entryT 40 0 .posted .notStarted], nextAcceptance := 1#32
      frontResponse := some { okay := true, beats := [] } } := eq_next_of_nextOf (by decide +kernel)

/-- A ninth write is held, and accepted when there is room. -/
theorem test_held_write :
    exec (.frontWriteRequest (addressT 40) (beatsT 4))
        { runningT with queue := List.replicate 8 (entryT 40 0 .posted .notStarted) }
      = .next { runningT with
          queue := List.replicate 8 (entryT 40 0 .posted .notStarted), held := some (.write (addressT 40) (beatsT 4)) }
    ∧ exec .heldWriteAccept { runningT with held := some (.write (addressT 40) (beatsT 4)) }
      = .next { runningT with
          queue := [entryT 40 0 .posted .notStarted], nextAcceptance := 1#32
          frontResponse := some { okay := true, beats := [] } } :=
  ⟨eq_next_of_nextOf (by decide +kernel), eq_next_of_nextOf (by decide +kernel)⟩

/-- The acknowledgement modes of a request taken in, and the states in which one is held or refused. -/
theorem test_hyps_requests : configT.ack = .posted ∧ ({ configT with ack := .completed } : ConfigRecord).ack = .completed
    ∧ runningT.queue.length < 8 ∧ (∀ e ∈ runningT.queue, e.mark = .posted)
    ∧ ({ runningT with operating := .unconfigured } : State).held = none ∧ configT.holdLimit ≠ 0#16
    ∧ (entryT 40 0 .completed .notStarted).timed = true := by decide +kernel

/-- The hold limit answers the request in the queue. -/
theorem test_hold_expiry : exec .holdTimerExpiry { runningT with queue := [entryT 40 0 .completed .notStarted] }
    = .next { runningT with
        frontResponse := some { okay := false, beats := [] }
        log := [{ kind := .holdExpired, source := .frontPortUnit, address := some (addressT 40), row := some 40, slot := none
                  epoch := 7#32, posted := false, partialDone := false }] } := eq_next_of_nextOf (by decide +kernel)

/-! ## The Row Engine -/

/-- A read that may be taken, and whole-row writes with and without a record. -/
theorem test_hyps_jobs :
    runningT.classify (.read (addressT 40) 4) false = .proceed 0
      ∧ (∀ e ∈ runningT.queue, ∀ row ∈ rowsOf (addressT 40) 4, row ∉ rowsOf e.address e.beats.length)
      ∧ burstAcceptable (addressT 40) 4 = true ∧ (∀ b ∈ beatsT 4, b.enable = 0xF#4)
      ∧ runningT.freeze[(0 : Fin 16)] = false ∧ (runningT.ahead (entryT 40 0 .posted .notStarted)) = false
      ∧ ((runningT.regions[(0 : Fin 16)]).mode == .journaled && runningT.needsRecord (rowOf (addressT 40))) = true
      ∧ runningT.classify (.write (addressT 64) (beatsT 4)) false = .proceed 1
      ∧ runningT.classify (.write (addressT 0) (beatsT 4)) false = .refuse .reservedArea 0
      ∧ runningT.classify (.read (addressT 200) 4) false = .refuse .notMapped 200
      ∧ (waitingT .commit .draining).classify (.write (addressT 40) (beatsT 4)) false = .hold := by decide +kernel

/-- A held read is marked held, alone or together with a held head; a held head is examined beside a read that waits for
the queue. -/
theorem test_held_candidates :
    let s : State :=
      { waitingT .undo .undoing with pendingRead := some { address := addressT 41, beats := 4, taken := false } }
    let both : State := { s with queue := [entryT 40 0 .posted .notStarted] }
    let beside : State := { s with queue := [entryT 41 0 .posted .notStarted] }
    s.classify (.read (addressT 41) 4) false = .hold
    ∧ nextOf (exec .jobTake s) = some { s with readHeld := true }
    ∧ nextOf (exec .jobTake both) = some { both with readHeld := true, headHeld := true }
    ∧ nextOf (exec .jobTake beside) = some { beside with headHeld := true } := by decide +kernel

/-- A head of the plain region is written at once. -/
theorem test_job_take : (nextOf (exec .jobTake
      { runningT with queue := [entryT 64 0 .posted .notStarted], nextAcceptance := 1#32 })).map State.port
    = some (.inFlight (flightT .front (.write 64 (freshRow 64 0x000000A5000000A5000000A5000000A5#128)) 1)) := by
  decide +kernel

/-- The one row of a read, GOOD and BAD. -/
theorem test_hyps_read : rowGood 40 (freshRow 40 5#128) = true ∧ rowGood 40 { data := 1#128, side := 2#16 } = false := by
  decide +kernel

/-- An append's three writes: the header write makes the record. -/
theorem test_append :
    (nextOf (exec (.memoryAttemptDone none)
        { runningT with
          job := some (jobT (.appending 0 0 0#32 .headerWrite)), queue := [entryT 40 0 .posted .taken]
          port := .inFlight (flightT .front (.write 103 (freshRow 103 0#128)) 1) })).map (fun t => (t.slots, t.slotHeaders, t.index))
      = some ([{ target := 40, backLink := none, side := 2#16 }], [{ imageBad := false, sequence := 0#32 }], [(40, 0)])
    ∧ (flightT .front (.write 103 (freshRow 103 0#128)) 2).retries.toNat
      < (flightT .front (.write 103 (freshRow 103 0#128)) 2).attempt := by decide +kernel

/-- An append that fails for good ends its job: the entry leaves the queue, a completed one is answered ERROR. -/
theorem test_append_fails :
    (nextOf (exec (.memoryAttemptFail .former)
        { runningT with
          job := some (jobT (.appending 0 0 0#32 .imageWrite)), queue := [entryT 40 0 .completed .taken]
          port := .inFlight (flightT .front (.write 104 (freshRow 104 1#128)) 2) })).map
        (fun t => (t.job, t.queue, t.frontResponse, t.log.map FaultRecord.slot))
      = some (none, [], some { okay := false, beats := [] }, [some 0]) := by decide +kernel

/-- An append takes slot 0 anew: with a stale header it clears it first, and the last sequence number is exhausted. -/
theorem test_append_begins :
    let s : State := { runningT with headerMark := 3 }
    ((s.startAppend (jobT (.reading 0)) 0).job.map Job.phase, (s.startAppend (jobT (.reading 0)) 0).nextSequence)
      = (some (.appending 0 0 0#32 .headerClear), 1#32)
    ∧ (runningT.startAppend (jobT (.reading 0)) 0).job.map Job.phase = some (.appending 0 0 0#32 .imageWrite)
    ∧ (({ runningT with nextSequence := 0xFFFFFFFF#32 } : State).startAppend (jobT (.reading 0)) 0).exhausted = true := by
  decide +kernel

/-! ## A job from its first row operation to its end -/

/-- A state whose job has its FRONT row operation in flight, in its attempt of this number. -/
def frontT (s : State) (j : Job) (op : RowOp) (attempt : Nat) : State :=
  { s with job := some j, port := .inFlight (flightT .front op attempt) }

/-- Every job can read its row, write it, and fail for good, by FAIL or by TIMEOUT. -/
theorem test_hyps_front (s : State) (j : Job) (row : Nat) (content : Row) (op : RowOp) (left : Residue) :
    (frontT s j (.read row) 1).frontReads j row (s.mem.read row)
      ∧ (frontT s j (.write row content) 1).frontWrites j row content
      ∧ (frontT s j op 2).frontFails j op (.memoryAttemptFail left) left .memoryFail
      ∧ ({ frontT s j op 2 with port := .aborting (flightT .front op 2) } : State).frontFails j op
          (.abortAcknowledge left) left .memoryTimeout :=
  ⟨⟨rfl, rfl, _, rfl, rfl, rfl⟩, ⟨rfl, _, rfl, rfl, rfl⟩,
    ⟨rfl, _, rfl, rfl, by show 1 < 2; decide, .inl ⟨rfl, rfl, rfl⟩⟩,
    ⟨rfl, _, rfl, rfl, by show 1 < 2; decide, .inr ⟨rfl, rfl, rfl⟩⟩⟩

/-- An eight-beat write of rows 64 and 65, of the plain region, whose halves have these enables. -/
def pairT (first second : BitVec 4) (mark : AckMode) : Entry :=
  { entryT 64 0 mark .notStarted with
    beats := List.replicate 4 { enable := first, data := 0xA5#32 } ++ List.replicate 4 { enable := second, data := 0#32 } }

/-- A PARTIAL row is read, an UNTOUCHED one passed over, a job without an enabled byte ends at once, and a head is taken
beside a read that is held. -/
theorem test_job_classes :
    (nextOf (exec .jobTake { runningT with queue := [pairT 0xF#4 0x1#4 .posted] })).map
        (fun t => (t.job.map Job.phase, t.job.map fun j => j.rows.map JobRow.cls))
      = some (some (.reading 1), some [.full, .part])
    ∧ (nextOf (exec .jobTake { runningT with queue := [pairT 0x0#4 0xF#4 .posted] })).map
        (fun t => t.job.map Job.phase) = some (some (.writing 1))
    ∧ (nextOf (exec .jobTake { runningT with queue := [pairT 0x0#4 0x0#4 .completed] })).map
        (fun t => (t.job, t.queue, t.frontResponse)) = some (none, [], some { okay := true, beats := [] })
    ∧ (nextOf (exec .jobTake
        { runningT with
          queue := [pairT 0xF#4 0xF#4 .posted], readHeld := true
          pendingRead := some { address := addressT 40, beats := 4, taken := false } })).map
        (fun t => t.job.map Job.phase) = some (some (.writing 0)) := by decide +kernel

/-- The job that the first of those makes of rows 64 and 65. -/
def pairJobT (mark : AckMode) (phase : JobPhase) : Job :=
  { source := .queueHead 0#32, request := (pairT 0xF#4 0x1#4 mark).request, mark := some mark, region := 1
    mode := .plain, frozen := false
    rows := [{ row := 64, data := 5#128, enables := 0xFFFF#16, cls := .full, needsRead := false, needsRecord := false
               result := none },
             { row := 65, data := 0#128, enables := 0x1111#16, cls := .part, needsRead := true, needsRecord := false
               result := none }]
    phase := phase }

/-- A PARTIAL row is merged, or refuses the job when it is BAD; and the freeze flag is looked up after the reads. -/
theorem test_job_reads :
    let s : State := { runningT with queue := [pairT 0xF#4 0x1#4 .posted], mem := [(65, freshRow 65 (-1#128))] }
    (nextOf (exec (.memoryAttemptDone none) (frontT s (pairJobT .posted (.reading 1)) (.read 65) 1))).map
        (fun t => (t.job.map Job.phase, t.port))
      = some (some (.writing 0), .inFlight (flightT .front (.write 64 (freshRow 64 5#128)) 1))
    ∧ (nextOf (exec (.memoryAttemptDone none)
        (frontT { s with mem := [(65, { data := 1#128, side := 2#16 })] } (pairJobT .posted (.reading 1)) (.read 65) 1))).map
        (fun t => (t.job, t.queue, t.log.map FaultRecord.kind)) = some (none, [], [.rowCheck])
    ∧ (nextOf (exec (.memoryAttemptDone none)
        (frontT { s with freeze := s.freeze.set 1 true } (pairJobT .posted (.reading 1)) (.read 65) 1))).map
        (fun t => (t.job, t.queue, t.log.map FaultRecord.kind)) = some (none, [], [.writeProtected])
    ∧ ((pairJobT .posted (.writing 1)).withResult 1 (.good (freshRow 65 (-1#128)))).mergedRow 1
        = freshRow 65 0x00FFFFFF00FFFFFF00FFFFFF00FFFFFF#128 := by decide +kernel

/-- The second row follows the first; after it the job ends, a completed write answered OKAY and the held write taken
in; and the second row's failure is PARTIAL_DONE. -/
theorem test_job_writes :
    let s : State := { runningT with queue := [pairT 0xF#4 0x1#4 .completed] }
    let w : Row := freshRow 65 0#128
    (nextOf (exec (.memoryAttemptDone none)
        (frontT s (pairJobT .completed (.writing 0)) (.write 64 (freshRow 64 5#128)) 1))).map
        (fun t => t.job.map Job.phase) = some (some (.writing 1))
    ∧ (nextOf (exec (.memoryAttemptDone none) (frontT s (pairJobT .completed (.writing 1)) (.write 65 w) 1))).map
        (fun t => (t.job, t.queue, t.frontResponse)) = some (none, [], some { okay := true, beats := [] })
    ∧ (nextOf (exec (.memoryAttemptDone none)
        (frontT { s with queue := [pairT 0xF#4 0x1#4 .posted], held := some (.write (addressT 40) (beatsT 4)) }
          (pairJobT .posted (.writing 1)) (.write 65 w) 1))).map
        (fun t => (t.queue.map Entry.address, t.held)) = some ([addressT 40], none)
    ∧ (nextOf (exec (.memoryAttemptFail .new) (frontT s (pairJobT .completed (.writing 1)) (.write 65 w) 2))).map
        (fun t => (t.frontResponse.map FrontResponse.okay, t.log.map FaultRecord.partialDone))
        = some (some false, [true])
    ∧ (nextOf (exec (.memoryAttemptFail .new)
        (frontT s (pairJobT .completed (.writing 0)) (.write 64 (freshRow 64 5#128)) 2))).map
        (fun t => (t.job, t.log.map FaultRecord.partialDone)) = some (none, [false]) := by decide +kernel

/-- A read job of rows 64 and 65, in a phase, with what its first row gave. -/
def readJobT (first : Option RowRead) (phase : JobPhase) : Job :=
  { source := .pendingRead, request := .read (addressT 64) 8, mark := none, region := 1, mode := .plain, frozen := false
    rows := [{ readJobRow 64 with result := first }, readJobRow 65], phase := phase }

/-- An eight-beat read goes on after a BAD row, and is answered ERROR with the zeros of that row alone. -/
theorem test_read_pair :
    (readJobT none (.reading 0)).rows.map JobRow.row = rowsOf (addressT 64) 8
    ∧ (nextOf (exec (.memoryAttemptDone none)
        (frontT { runningT with mem := [(64, { data := 1#128, side := 2#16 })] } (readJobT none (.reading 0)) (.read 64)
          1))).map (fun t => (t.job.map Job.phase, t.log.map FaultRecord.row)) = some (some (.reading 1), [some 64])
    ∧ (nextOf (exec (.memoryAttemptDone none)
        (frontT { runningT with mem := [(65, freshRow 65 (-1#128))] }
          (readJobT (some (.bad { data := 1#128, side := 2#16 })) (.reading 1)) (.read 65) 1))).map State.frontResponse
      = some (some { okay := false, beats := List.replicate 4 0#32 ++ List.replicate 4 (-1#32) }) := by decide +kernel

/-! ## The memory port -/

/-- An attempt that fails is retried; an expired one is aborted. -/
theorem test_port :
    exec (.memoryAttemptFail .former) { runningT with port := .inFlight (flightT .maint (.read 101) 1) }
      = .next { runningT with
          port := .inFlight { flightT .maint (.read 101) 2 with last := some .fail }, retryCounter := 1#8 }
    ∧ exec .attemptTimerExpiry { runningT with port := .inFlight (flightT .maint (.read 101) 1) }
      = .next { runningT with port := .aborting (flightT .maint (.read 101) 1) }
    ∧ exec (.abortAcknowledge .former) { runningT with port := .aborting (flightT .maint (.read 101) 1) }
      = .next { runningT with
          port := .inFlight { flightT .maint (.read 101) 2 with last := some .timeout }, retryCounter := 1#8 } :=
  ⟨eq_next_of_nextOf (by decide +kernel), eq_next_of_nextOf (by decide +kernel), eq_next_of_nextOf (by decide +kernel)⟩

/-- The arbiter's cases. -/
theorem test_hyps_arbiter : runningT.port = .idle ∧ runningT.waiting Requester.front.other = none
    ∧ lawfulT.port ≠ .idle ∧ runningT.lastServed = .front ∧ State.reset.active = none
    ∧ ({ runningT with waitFront := some (.read 40) } : State).waitMaint = none
    ∧ ({ runningT with waitMaint := some (.read 40) } : State).waitFront = none := by decide +kernel

/-- A restore whose image read fails for good. -/
theorem test_hyps_finalFailure :
    (recordsT runningT).base.toNat + 3 + 2 * 1 = 106
      ∧ (recordsT runningT).slots[1]? = some { target := 41, backLink := none, side := 0#16 }
      ∧ (LongOp.created .rollback .link false).origin ≠ .start ∧ runningT.operating ≠ .unconfigured := by decide +kernel

/-! ## Long operations -/

theorem drainEnded_waitingT (kind : OpKind) (journal : JournalState) :
    (waitingT kind journal).drainEnded (LongOp.created kind .link false) :=
  ⟨rfl, rfl, rfl, fun _ h => absurd h List.not_mem_nil, fun j h => nomatch (show (none : Option Job) = some j from h)⟩

/-- Every long operation can end its drain, with an empty table and with records, without and with seven savepoints. -/
theorem test_hyps_drainEnd (kind : OpKind) (journal : JournalState) (stack : List Nat) :
    ({ waitingT kind journal with stack := stack } : State).drainEnded (LongOp.created kind .link false)
      ∧ ({ recordsT (waitingT kind journal) with stack := stack } : State).drainEnded (LongOp.created kind .link false)
      ∧ (LongOp.created kind .link false).origin ≠ .start ∧ (waitingT kind journal).operating ≠ .unconfigured
      ∧ (List.replicate 7 0).length = 7 ∧ ([] : List Nat).length < 7 :=
  ⟨drainEnded_waitingT kind journal, drainEnded_waitingT kind journal, by simp [LongOp.created],
    by simp [waitingT, runningT], rfl, by simp⟩

/-- SAVE pushes the tail. -/
theorem test_save : (nextOf (exec .drainEnd (recordsT (waitingT .save .draining)))).map
    (fun t => (t.stack, t.journal, t.longOp)) = some ([2], .opened, none) := by decide +kernel

/-- A COMMIT with records writes anchor B, whose epoch is lower; one of an empty journal ends EMPTY. -/
theorem test_commit :
    (nextOf (exec .drainEnd (recordsT (waitingT .commit .draining)))).map (fun t => (t.journal, t.anchorB, t.maint))
      = some (.committing, .invalid, some (.anchorWrite .advance .b 8#32))
    ∧ (nextOf (exec .drainEnd (waitingT .commit .draining))).map
        (fun t => (t.journal, t.completion.map CompletionRecord.result)) = some (.opened, some .empty) := by
  decide +kernel

/-- The last epoch, and the exhausted sequence. -/
theorem test_hyps_lastEpoch : ({ runningT with epoch := some 0xFFFFFFFF#32 } : State).epochOrZero = 0xFFFFFFFF#32
    ∧ runningT.epochOrZero ≠ 0xFFFFFFFF#32 := by decide +kernel

/-- A confirming read of anchor B: the fields as written, with an unused byte set, and another content. -/
theorem test_confirm :
    (nextOf (exec (.memoryAttemptDone none)
        { recordsT (waitingT .commit .committing) with
          mem := [(102, freshRow 102 (1#128 ||| Anchor.encode
            { marker := 0x6B31D4E8#32, epoch := 8#32, base := 101#24, nSlots := 16#16 }))]
          maint := some (.anchorConfirm .advance .b 8#32)
          port := .inFlight (flightT .maint (.read 102) 1) })).map (fun t => (t.journal, t.epoch, t.slots))
      = some (.opened, some 8#32, [])
    ∧ Anchor.decode (runningT.mem.read 102).data
        ≠ { marker := 0x6B31D4E8#32, epoch := 8#32, base := 101#24, nSlots := 16#16 } := by decide +kernel

/-- A restore of slot 1: its image is GOOD, and after the target write slot 0 is next. -/
theorem test_restore :
    rowGood 106 (freshRow 106 9#128) = true
    ∧ (recordsT (waitingT .rollback .rollingBack)).slots
        = [{ target := 40, backLink := none, side := 0#16 }] ++ [{ target := 41, backLink := none, side := 0#16 }]
    ∧ ({ recordsT (waitingT .undo .undoing) with stack := [0] } : State).segmentStart < 1
    ∧ (nextOf (exec (.memoryAttemptDone none)
        { recordsT (waitingT .rollback .rollingBack) with
          maint := some (.restoreTarget 1)
          port := .inFlight (flightT .maint (.write 41 (freshRow 41 9#128)) 1) })).map
        (fun t => (t.slots, t.index, t.maint))
      = some ([{ target := 40, backLink := none, side := 0#16 }], [(40, 0)], some (.restoreImage 0)) := by
  decide +kernel
/-- The restore that reaches a savepoint ends the UNDO; a BAD image is skipped, or stops the operation. -/
theorem test_restore_ends :
    (nextOf (exec (.memoryAttemptDone none)
        { recordsT (waitingT .undo .undoing) with
          stack := [1], maint := some (.restoreTarget 1)
          port := .inFlight (flightT .maint (.write 41 (freshRow 41 9#128)) 1) })).map
        (fun t => (t.journal, t.slots.length, t.completion.map CompletionRecord.restored)) = some (.opened, 1, some 1)
    ∧ (nextOf (exec (.memoryAttemptDone none)
        { recordsT (waitingT .resume .rollingBack) with
          longOp := some (LongOp.created .resume .link true), maint := some (.restoreImage 1)
          mem := [(106, { data := 1#128, side := 2#16 })], port := .inFlight (flightT .maint (.read 106) 1) })).map
        (fun t => (t.slots.length, t.maint, t.log.map FaultRecord.kind))
      = some (1, some (.restoreImage 0), [.imageCheck])
    ∧ (nextOf (exec (.memoryAttemptDone none)
        { recordsT (waitingT .rollback .rollingBack) with
          maint := some (.restoreImage 1), mem := [(106, { data := 1#128, side := 2#16 })]
          port := .inFlight (flightT .maint (.read 106) 1) })).map
        (fun t => (t.journal, t.slots.length, t.completion.map CompletionRecord.fault))
      = some (.broken .rollBack, 2, some (some .imageCheck)) := by decide +kernel

/-- A RESUME of a broken commit, and a ROLLBACK that has only sequence numbers to give back, make the advance alone; the
confirming read of a ROLLBACK's anchor ends it, in BROKEN when the row holds something else. -/
theorem test_advance_alone :
    (nextOf (exec .drainEnd (recordsT (waitingT .resume (.broken .completeCommit))))).map
        (fun t => (t.journal, t.slots.length, t.maint)) = some (.committing, 2, some (.anchorWrite .advance .b 8#32))
    ∧ (nextOf (exec .drainEnd { waitingT .rollback .draining with exhausted := true })).map
        (fun t => (t.journal, t.maint)) = some (.rollingBack, some (.anchorWrite .advance .b 8#32))
    ∧ (nextOf (exec (.memoryAttemptDone none)
        { waitingT .rollback .rollingBack with
          mem := [(102, freshRow 102 (Anchor.encode
            { marker := 0x6B31D4E8#32, epoch := 8#32, base := 101#24, nSlots := 16#16 }))]
          maint := some (.anchorConfirm .advance .b 8#32), port := .inFlight (flightT .maint (.read 102) 1) })).map
        (fun t => (t.journal, t.epoch)) = some (.opened, some 8#32)
    ∧ (nextOf (exec (.memoryAttemptDone none)
        { waitingT .rollback .rollingBack with
          maint := some (.anchorConfirm .advance .b 8#32), port := .inFlight (flightT .maint (.read 102) 1) })).map
        (fun t => (t.journal, t.epoch)) = some (.broken .rollBack, some 7#32) := by decide +kernel

/-- Every check of APPLY can be the first that applies, and all can pass. -/
theorem test_hyps_apply :
    configT.valid = true ∧ configT.generation ≠ 0xFFFFFFFF#32
      ∧ ({ configT with generation := 0xFFFFFFFF#32 } : ConfigRecord).valid = true
      ∧ ConfigRecord.zero.valid = false ∧ (∀ r : Fin 16, runningT.freeze[r] = false)
      ∧ (∃ r : Fin 16, lawfulT.freeze[r] = true) ∧ runningT.deferredFreeze = none
      ∧ (recordsT (waitingT .apply .draining)).slots ≠ [] ∧ runningT.designation = some .a
      ∧ ({ configT with base := 103#24 } : ConfigRecord).valid = true
      ∧ (nextOf (exec .drainEnd { waitingT .apply .draining with designation := some .b })).map
          (fun t => (t.copyA, t.copyB, t.maint)) = some (.invalid, .invalid, some (.copyClear .a)) := by decide +kernel

/-- The activation installs the staged record as generation 6. -/
theorem test_activation : (nextOf (exec .applyActivation
      { runningT with
        activationDue := true
        longOp := some { LongOp.created .apply .link false with phase := .executing } })).map
    (fun t => (t.active.map ConfigRecord.generation, t.designation)) = some (some 6#32, some .b) := by decide +kernel

/-- UNCONFIGURED, with an APPLY under way. -/
def firstApplyT : State :=
  { State.reset with
    inReset := false, operating := .unconfigured, staging := configT
    longOp := some { LongOp.created .apply .link false with phase := .executing } }

/-- The first APPLY's activation: generation 1, designation A, and the format begins. -/
theorem test_firstActivation : (nextOf (exec .applyActivation { firstApplyT with activationDue := true })).map
    (fun t => (t.active.map ConfigRecord.generation, t.designation, t.journal, t.operating))
      = some (some 1#32, some .a, .formatting, .unconfigured) := by decide +kernel

/-- The journal step of an APPLY: no journal area, the area unchanged, and another area. -/
theorem test_journalStep :
    let s : State :=
      { runningT with
        activationDue := true, journal := .draining
        longOp := some { LongOp.created .apply .link false with phase := .executing } }
    (nextOf (exec .applyActivation { s with staging := { configT with nSlots := 0#16 } })).map
        (fun t => (t.journal, t.epoch, t.anchorA)) = some (.absent .notConfigured, none, .invalid)
    ∧ (nextOf (exec .applyActivation s)).map (fun t => (t.journal, t.epoch, t.anchorA))
        = some (.opened, some 7#32, .valid 7#32)
    ∧ (nextOf (exec .applyActivation { s with staging := { configT with base := 103#24 } })).map
        (fun t => (t.journal, t.anchorA, t.maint)) = some (.formatting, .invalid, some (.formatAnchor .a 7#32))
    ∧ (nextOf (exec .applyActivation
        { firstApplyT with activationDue := true, staging := { configT with nSlots := 0#16 }, pfw := true })).map
        (fun t => (t.journal, t.operating)) = some (.absent .notConfigured, .quiescing)
    ∧ ¬ firstApplyT.headParked ∧ firstApplyT.ckptLatch = false := by
  refine ⟨by decide +kernel, by decide +kernel, by decide +kernel, by decide +kernel, ?_, rfl⟩
  rintro ⟨e, he, _⟩
  cases he

/-! ## The work on MAINT -/

/-- A state whose MAINT row operation is in flight, in its attempt of this number. -/
def maintT (s : State) (task : MaintTask) (op : RowOp) (attempt : Nat) : State :=
  { s with maint := some task, port := .inFlight (flightT .maint op attempt) }

/-- Every task can read its row, write it, and fail for good, by FAIL or by TIMEOUT. -/
theorem test_hyps_maint (s : State) (task : MaintTask) (row : Nat) (content : Row) (op : RowOp) (left : Residue) :
    (maintT s task (.read row) 1).maintReads task row (s.mem.read row)
      ∧ (maintT s task (.write row content) 1).maintWrites task row content
      ∧ (maintT s task op 2).maintFails task op (.memoryAttemptFail left) left .memoryFail
      ∧ ({ maintT s task op 2 with port := .aborting (flightT .maint op 2) } : State).maintFails task op
          (.abortAcknowledge left) left .memoryTimeout :=
  ⟨⟨rfl, rfl, _, rfl, rfl, rfl⟩, ⟨rfl, _, rfl, rfl, rfl⟩,
    ⟨rfl, _, rfl, rfl, by show 1 < 2; decide, .inl ⟨rfl, rfl, rfl⟩⟩,
    ⟨rfl, _, rfl, rfl, by show 1 < 2; decide, .inr ⟨rfl, rfl, rfl⟩⟩⟩

/-- Out of reset, before the load has ended. -/
def startingT : State := { State.reset with inReset := false }

/-- SCANNING in epoch 7 after the anchors were selected. -/
def scanningT : State :=
  { runningT with
    operating := .starting, journal := .scanning
    longOp := some { LongOp.created .rollback .start false with phase := .executing } }

/-- The load: a row in the middle of a copy, the sixteenth row of copy A, and a BAD row of copy B. -/
theorem test_load :
    (nextOf (exec (.memoryAttemptDone none)
        (maintT { startingT with mem := [(14, freshRow 14 (configRowData configT 14))] }
          (.loadRow .a 14 ((List.range 14).map (configRowData configT)) none) (.read 14) 1))).map State.maint
      = some (some (.loadRow .a 15 ((List.range 15).map (configRowData configT)) none))
    ∧ (nextOf (exec (.memoryAttemptDone none)
        (maintT { startingT with mem := [(15, freshRow 15 (configRowData configT 15))] }
          (.loadRow .a 15 ((List.range 15).map (configRowData configT)) none) (.read 15) 1))).map
        (fun t => (t.copyA, t.maint)) = some (.valid 5#32, some (.loadRow .b 0 [] (some configT)))
    ∧ rowGood 16 (startingT.mem.read 16) = false := by decide +kernel

/-- The selection: equal generations, one VALID copy, and none. -/
theorem test_select :
    (startingT.selectConfig (some configT) (some configT)).designation = some .a
    ∧ (startingT.selectConfig (some configT) (some { configT with generation := 6#32 })).designation = some .b
    ∧ ((startingT.selectConfig (some configT) none).log.map FaultRecord.row,
        (startingT.selectConfig (some configT) none).maint) = ([some 16], some (.anchorRead .a))
    ∧ (startingT.selectConfig none (some configT)).log.map FaultRecord.row = [some 0]
    ∧ (startingT.selectConfig (some { configT with nSlots := 0#16 }) none).operating = .running
    ∧ (startingT.selectConfig none none).operating = .unconfigured ∧ startingT.held = none := by decide +kernel

/-- The request held since before the load, as a configuration is installed: a read, a posted write, a completed one,
and a burst that is not acceptable. -/
theorem test_heldAtInstall :
    let s (r : Request) : State := { startingT with held := some r }
    let read : State := (s (.read (addressT 40) 4)).selectConfig (some configT) none
    let posted : State := (s (.write (addressT 40) (beatsT 4))).selectConfig (some configT) none
    let completed : State :=
      (s (.write (addressT 40) (beatsT 4))).selectConfig (some { configT with ack := .completed }) none
    let bad : State := (s (.read (addressT 40) 3)).selectConfig (some configT) (some configT)
    (read.held, read.pendingRead) = (none, some { address := addressT 40, beats := 4, taken := false })
    ∧ (posted.held, posted.queue, posted.frontResponse)
      = (none, [entryT 40 0 .posted .notStarted], some { okay := true, beats := [] })
    ∧ (completed.held, completed.queue, completed.frontResponse)
      = (none, [entryT 40 0 .completed .notStarted], none)
    ∧ (bad.held, bad.frontResponse, bad.log.map FaultRecord.kind)
      = (none, some { okay := false, beats := List.replicate 3 0#32 }, [.alignment])
    ∧ burstAcceptable (addressT 40) 3 = false := by decide +kernel

/-- The same burst beside CONFIG_DEGRADED, whose order is free: it is answered ERROR either way. -/
theorem test_heldBurstDegraded :
    (({ startingT with held := some (.read (addressT 40) 3) } : State).selectConfig (some configT) none).frontResponse
      = some { okay := false, beats := List.replicate 3 0#32 } := by
  have h : burstAcceptable (addressT 40) (Request.read (addressT 40) 3).length = false := by decide +kernel
  simp [State.selectConfig, State.install, Request.address, h, configT, State.enterScanning, State.answerRefused,
    State.answer, Request.refusedBeats, zeroBeats]

/-- A held request in UNCONFIGURED is answered ERROR with NOT_READY, a latched request is dropped. -/
theorem test_heldUnconfigured :
    let t : State := ({ startingT with held := some (.read (addressT 40) 3) } : State).selectConfig none none
    let u : State := ({ startingT with ckptLatch := true } : State).selectConfig none none
    (t.held, t.operating, t.log) = (none, .unconfigured, [requestFault .notReady (addressT 40) none 0#32])
    ∧ t.frontResponse = some { okay := false, beats := List.replicate 3 0#32 }
    ∧ (u.ckptLatch, u.log.map FaultRecord.kind) = (false, [.ckptDropped]) := by decide +kernel

/-- The latch and PFW at the end of a start: a COMMIT in OPEN, a dropped request, QUIESCING, and a head in space-wait.
-/
theorem test_startEnds :
    let opened (s : State) :=
      (nextOf (exec (.memoryAttemptDone none) (maintT s (.scanHeader 0 [] []) (.read 103) 1))).map
        fun t => (t.journal, t.longOp.map LongOp.origin, t.operating)
    opened { scanningT with ckptLatch := true } = some (.draining, some .line, .running)
    ∧ opened { scanningT with pfw := true } = some (.opened, none, .quiescing)
    ∧ (State.startEnded { startingT with ckptLatch := true, pfw := true }).operating = .quiescing
    ∧ (State.startEnded { startingT with ckptLatch := true }).log.map FaultRecord.kind = [.ckptDropped]
    ∧ (State.startEnded { runningT with pfw := true, queue := [entryT 40 0 .posted .spaceWait] }).queue = [] := by
  decide +kernel

/-- An anchor row of an epoch and a base row. -/
def anchorRowT (row epoch base : Nat) : Row :=
  freshRow row (Anchor.encode
    { marker := 0x6B31D4E8#32, epoch := BitVec.ofNat 32 epoch, base := BitVec.ofNat 24 base, nSlots := 16#16 })

/-- Anchor B is read: a greater epoch, another area's anchor, and a row that is no anchor. -/
theorem test_anchors :
    let s : State := { scanningT with anchorA := .valid 7#32, log := [] }
    (nextOf (exec (.memoryAttemptDone none)
        (maintT { s with mem := [(102, anchorRowT 102 8 101)] } (.anchorRead .b) (.read 102) 1))).map
        (fun t => (t.epoch, t.maint, t.log.length)) = some (some 8#32, some (.scanHeader 0 [] []), 0)
    ∧ (nextOf (exec (.memoryAttemptDone none)
        (maintT { s with mem := [(102, anchorRowT 102 8 99)] } (.anchorRead .b) (.read 102) 1))).map
        (fun t => (t.epoch, t.anchorB, t.log.map FaultRecord.row)) = some (some 7#32, .mismatched, [some 102])
    ∧ (nextOf (exec (.memoryAttemptDone none)
        (maintT { s with anchorA := .mismatched } (.anchorRead .b) (.read 102) 1))).map
        (fun t => (t.journal, t.operating)) = some (.absent .anchorMismatch, .running)
    ∧ (nextOf (exec (.memoryAttemptDone none)
        (maintT { s with anchorA := .invalid } (.anchorRead .b) (.read 102) 1))).map State.journal
        = some (.absent .anchorLost)
    ∧ (nextOf (exec (.memoryAttemptFail .former) (maintT s (.anchorRead .a) (.read 101) 2))).map
        (fun t => (t.anchorA, t.maint, t.log.map FaultRecord.epoch))
        = some (.invalid, some (.anchorRead .b), [0#32]) := by decide +kernel

/-- A header row of epoch 7 for target row 40, with a back-link or none. -/
def headerRowT (k sequence : Nat) (link : Option Nat) : Row :=
  freshRow (103 + 2 * k)
    (recordHeader false 7#32 (BitVec.ofNat 32 sequence) 40 link 2#16).encode

/-- The slot that a scan has accepted. -/
def firstT : List SlotEntry := [{ target := 40, backLink := none, side := 2#16 }]

/-- What its header holds beside the entry. -/
def firstHeaderT : List SlotHeader := [{ imageBad := false, sequence := 3#32 }]

/-- The scan's conditions: a slot accepted before the last and at the last, and a chain and a number that do not fit. -/
theorem test_scan :
    (nextOf (exec (.memoryAttemptDone none)
        (maintT { scanningT with mem := [(103, headerRowT 0 3 none)] } (.scanHeader 0 [] []) (.read 103) 1))).map
        State.maint = some (some (.scanHeader 1 firstHeaderT firstT))
    ∧ scanningT.headerAccepted 1 (some 3#32) firstT (headerRowT 1 4 (some 0)) = true
    ∧ scanningT.headerAccepted 1 (some 3#32) firstT (headerRowT 1 3 (some 0)) = false
    ∧ scanningT.headerAccepted 1 (some 3#32) firstT (headerRowT 1 4 none) = false
    ∧ scanningT.headerAccepted 15 none [] (headerRowT 15 3 none) = true := by decide +kernel

/-- The scan stops over records, over none, and over none in the last epoch. -/
theorem test_scanStops :
    (nextOf (exec (.memoryAttemptDone none)
        (maintT scanningT (.scanHeader 1 firstHeaderT firstT) (.read 105) 1))).map
        (fun t => (t.slots, t.index, t.headerMark)) = some (firstT, [(40, 0)], 0)
    ∧ (nextOf (exec (.memoryAttemptDone none)
        (maintT scanningT (.scanHeader 1 firstHeaderT firstT) (.read 105) 1))).map State.recoveryMark = some (some 16)
    ∧ (nextOf (exec (.memoryAttemptDone none)
        (maintT scanningT (.scanHeader 1 firstHeaderT firstT) (.read 105) 1))).map
        (fun t => (t.journal, t.maint)) = some (.rollingBack, some (.restoreImage 0))
    ∧ (nextOf (exec (.memoryAttemptDone none) (maintT scanningT (.scanHeader 0 [] []) (.read 103) 1))).map
        (fun t => (t.journal, t.headerMark, t.operating)) = some (.opened, 16, .running)
    ∧ (nextOf (exec (.memoryAttemptDone none)
        (maintT { scanningT with epoch := some 0xFFFFFFFF#32 } (.scanHeader 0 [] []) (.read 103) 1))).map State.maint
        = some (some (.wipeHeader 0 false)) := by decide +kernel

/-- A failed header read ends the scan with the slots accepted so far, and the header mark N_S. -/
theorem test_scanFails :
    let t := nextOf (exec (.memoryAttemptFail .former)
      (maintT scanningT (.scanHeader 15 firstHeaderT firstT) (.read 133) 2))
    t.map (fun t => (t.journal, t.slots, t.slotHeaders)) = some (.broken .rollBack, firstT, firstHeaderT)
    ∧ t.map (fun t => (t.headerMark, t.log.map FaultRecord.slot)) = some (16, [some 15]) := by decide +kernel

/-- The start rolls back its last record. -/
def rollingT : State :=
  { scanningT with
    journal := .rollingBack, slots := [{ target := 40, backLink := none, side := 0#16 }], index := [(40, 0)]
    slotHeaders := firstHeaderT, recoveryMark := some 16 }

/-- The start's rollback: its last record, its anchor, another content, and a BAD image. -/
theorem test_rollbackEnd :
    (nextOf (exec (.memoryAttemptDone none)
        (maintT rollingT (.restoreTarget 0) (.write 40 (freshRow 40 1#128)) 1))).map (fun t => (t.slots, t.slotHeaders, t.maint))
        = some ([], [], some (.anchorWrite .advance .b 8#32))
    ∧ (nextOf (exec (.memoryAttemptDone none)
        (maintT { rollingT with mem := [(102, anchorRowT 102 8 101)] } (.anchorConfirm .advance .b 8#32) (.read 102) 1))).map
        (fun t => (t.epoch, t.headerMark, t.recoveryMark)) = some (some 8#32, 0, none)
    ∧ (nextOf (exec (.memoryAttemptDone none) (maintT rollingT (.anchorConfirm .advance .b 8#32) (.read 102) 1))).map
        (fun t => (t.journal, t.headerMark, t.log.map FaultRecord.kind)) = some (.broken .rollBack, 16, [.memoryFail])
    ∧ (nextOf (exec (.memoryAttemptDone none) (maintT rollingT (.restoreImage 0) (.read 104) 1))).map
        (fun t => (t.journal, t.log.map FaultRecord.row, t.headerMark)) = some (.broken .rollBack, [some 40], 16) := by
  decide +kernel

/-- The final failure of a row operation ends the start's rollback in BROKEN with the header mark N_S and a record of
this row. -/
def rollingFailsT (task : MaintTask) (op : RowOp) (row : Nat) : Bool :=
  ((nextOf (exec (.memoryAttemptFail .former) (maintT rollingT task op 2))).map fun t =>
    t.journal == .broken .rollBack && t.headerMark == 16 && t.log.map FaultRecord.row == [some row]).getD false

/-- Every row operation of the start's rollback can fail so. -/
theorem test_rollbackFails :
    rollingFailsT (.restoreImage 0) (.read 104) 40 = true
    ∧ rollingFailsT (.restoreTarget 0) (.write 40 (freshRow 40 1#128)) 40 = true
    ∧ rollingFailsT (.anchorWrite .advance .b 8#32) (.write 102 (anchorRowT 102 8 101)) 102 = true
    ∧ rollingFailsT (.anchorConfirm .wipeFirst .b 1#32) (.read 102) 102 = true
    ∧ rollingFailsT (.wipeHeader 3 false) (.write 109 (freshRow 109 0#128)) 109 = true := by decide +kernel

/-- The start's wipe: its first anchor copy is followed by the second, whose confirmation ends the start. -/
theorem test_rollbackWipe :
    (nextOf (exec (.memoryAttemptDone none)
        (maintT { rollingT with mem := [(102, anchorRowT 102 1 101)] } (.anchorConfirm .wipeFirst .b 1#32) (.read 102)
          1))).map State.maint = some (some (.anchorWrite .wipeSecond .a 1#32))
    ∧ (nextOf (exec (.memoryAttemptDone none)
        (maintT { rollingT with mem := [(101, anchorRowT 101 1 101)] } (.anchorConfirm .wipeSecond .a 1#32) (.read 101)
          1))).map (fun t => (t.journal, t.headerMark, t.operating)) = some (.opened, 0, .running) := by decide +kernel

/-- The start's rollback satisfies the laws that its steps keep. -/
theorem test_hyps_recoveryLaw : (maintT rollingT (.restoreImage 0) (.read 104) 2).recoveryLaw
    ∧ (maintT rollingT (.restoreImage 0) (.read 104) 2).configLaw
    ∧ ∃ t, step { maintT rollingT (.restoreImage 0) (.read 104) 2 with pending := [.status] } = .next t := by
  refine ⟨fun o ho _ => ?_, ?_, _, rfl⟩
  · obtain rfl : ({ LongOp.created .rollback .start false with phase := .executing } : LongOp) = o := Option.some.inj ho
    exact ⟨rfl, rfl, rfl, .inr ⟨rfl, by decide +kernel⟩⟩
  · unfold State.configLaw
    refine ⟨fun c h => ?_, fun c h => ?_, fun h => absurd h ?_, fun h => absurd h ?_, fun h => absurd h ?_⟩
    · obtain rfl : configT = c := Option.some.inj h
      decide +kernel
    · exact nomatch (show (none : Option ConfigRecord) = some c from h)
    · decide +kernel
    · decide +kernel
    · decide +kernel

/-- FORMATTING, in epoch 7, the tables empty. -/
def formattingT : State :=
  { runningT with
    journal := .formatting, longOp := some { LongOp.created .format .link false with phase := .executing } }

/-- A format: a failed anchor read files its record and contributes nothing, the greatest epoch is kept, the last header
is followed by an anchor or by the wipe, and a failed header read ends it. -/
theorem test_formatGoesOn :
    (nextOf (exec (.memoryAttemptFail .former) (maintT formattingT (.formatAnchor .a 7#32) (.read 101) 2))).map
        (fun t => (t.maint, t.log))
        = some (some (.formatAnchor .b 7#32), [unitFault .memoryFail .journalUnit 101 none 7#32])
    ∧ (nextOf (exec (.memoryAttemptDone none)
        (maintT { formattingT with mem := [(102, anchorRowT 102 9 99)] } (.formatAnchor .b 7#32) (.read 102) 1))).map
        State.maint = some (some (.formatHeader 0 9#32))
    ∧ (nextOf (exec (.memoryAttemptDone none) (maintT formattingT (.formatHeader 15 9#32) (.read 133) 1))).map
        State.maint = some (some (.anchorWrite .formatFirst .b 10#32))
    ∧ (nextOf (exec (.memoryAttemptDone none) (maintT formattingT (.formatHeader 15 0xFFFFFFFF#32) (.read 133) 1))).map
        State.maint = some (some (.wipeHeader 0 true))
    ∧ (nextOf (exec (.memoryAttemptFail .former) (maintT formattingT (.formatHeader 15 9#32) (.read 133) 2))).map
        (fun t => (t.journal, t.epoch, t.log.map FaultRecord.slot))
        = some (.absent .anchorLost, none, [some 15]) := by decide +kernel

/-- A wipe: its last header, a failed write, and the anchors that follow it and end it. -/
theorem test_wipe :
    let s : State := { formattingT with journal := .committing, longOp := some (LongOp.created .commit .link false) }
    (nextOf (exec (.memoryAttemptDone none)
        (maintT s (.wipeHeader 15 false) (.write 133 (freshRow 133 0#128)) 1))).map State.maint
        = some (some (.anchorWrite .wipeFirst .b 1#32))
    ∧ (nextOf (exec (.memoryAttemptFail .former)
        (maintT s (.wipeHeader 15 false) (.write 133 (freshRow 133 0#128)) 2))).map
        (fun t => (t.journal, t.log.map FaultRecord.slot)) = some (.broken .completeCommit, [some 15])
    ∧ (nextOf (exec (.memoryAttemptDone none)
        (maintT { s with mem := [(102, anchorRowT 102 1 101)] } (.anchorConfirm .wipeFirst .b 1#32) (.read 102) 1))).map
        (fun t => (t.epoch, t.maint)) = some (some 1#32, some (.anchorWrite .wipeSecond .a 1#32))
    ∧ (nextOf (exec (.memoryAttemptDone none)
        (maintT { s with mem := [(101, anchorRowT 101 1 101)] } (.anchorConfirm .wipeSecond .a 1#32) (.read 101) 1))).map
        (fun t => (t.journal, t.epoch)) = some (.opened, some 1#32)
    ∧ (nextOf (exec (.memoryAttemptDone none)
        (maintT formattingT (.anchorConfirm .formatSecond .a 10#32) (.read 101) 1))).map
        (fun t => (t.journal, t.epoch)) = some (.absent .anchorLost, none) := by decide +kernel

/-- The failures that end a load, a start and an operation, and the last epoch's rollback. -/
theorem test_failures :
    let s : State := { formattingT with journal := .committing, longOp := some (LongOp.created .commit .link false) }
    (nextOf (exec (.memoryAttemptFail .former) (maintT startingT (.loadRow .b 3 [] (some configT)) (.read 19) 2))).map
        (fun t => (t.copyB, t.designation, t.log.map FaultRecord.row))
        = some (.invalid, some .a, [some 19, some 16])
    ∧ (nextOf (exec (.memoryAttemptFail .former)
        (maintT { scanningT with anchorA := .valid 7#32 } (.anchorRead .b) (.read 102) 2))).map
        (fun t => (t.anchorB, t.epoch, t.log.map FaultRecord.kind))
        = some (.invalid, some 7#32, [.memoryFail, .anchorDegraded])
    ∧ (nextOf (exec (.memoryAttemptDone none)
        (maintT { rollingT with epoch := some 0xFFFFFFFF#32 } (.restoreTarget 0) (.write 40 (freshRow 40 1#128)) 1))).map
        State.maint = some (some (.wipeHeader 0 false))
    ∧ (nextOf (exec (.memoryAttemptFail .new)
        (maintT s (.anchorWrite .advance .b 8#32) (.write 102 (anchorRowT 102 8 101)) 2))).map
        (fun t => (t.journal, t.epoch, t.log.map FaultRecord.row))
        = some (.broken .completeCommit, some 7#32, [some 102])
    ∧ (nextOf (exec (.memoryAttemptFail .former)
        (maintT formattingT (.anchorConfirm .formatFirst .b 8#32) (.read 102) 2))).map
        (fun t => (t.journal, t.epoch)) = some (.absent .anchorLost, none) := by decide +kernel

/-- A first APPLY's format ends the time in UNCONFIGURED, whether it succeeds or not. -/
theorem test_firstFormatEnds :
    let s : State :=
      { formattingT with
        operating := .unconfigured, longOp := some { LongOp.created .apply .link false with phase := .executing } }
    (nextOf (exec (.memoryAttemptDone none)
        (maintT { s with mem := [(102, anchorRowT 102 1 101)] } (.anchorConfirm .formatSecond .b 1#32) (.read 102) 1))).map
        (fun t => (t.journal, t.epoch, t.operating)) = some (.opened, some 1#32, .running)
    ∧ (nextOf (exec (.memoryAttemptDone none) (maintT s (.anchorConfirm .formatSecond .b 1#32) (.read 102) 1))).map
        (fun t => (t.journal, t.epoch, t.operating)) = some (.absent .anchorLost, none, .running)
    ∧ s.active ≠ none := by decide +kernel

/-- Every failure of a first APPLY's format leaves UNCONFIGURED too; with PFW asserted, for QUIESCING. -/
theorem test_firstFormatFails :
    let s : State :=
      { formattingT with
        operating := .unconfigured, longOp := some { LongOp.created .apply .link false with phase := .executing } }
    let left (o : Host.Outcome State Fault Refusal) := (nextOf o).map fun t => (t.journal, t.operating, t.epoch)
    let failed (task : MaintTask) (op : RowOp) := left (exec (.memoryAttemptFail .former) (maintT s task op 2))
    failed (.formatHeader 15 9#32) (.read 133) = some (.absent .anchorLost, .running, none)
    ∧ failed (.wipeHeader 3 true) (.write 109 (freshRow 109 0#128)) = some (.absent .anchorLost, .running, none)
    ∧ failed (.anchorWrite .formatFirst .b 8#32) (.write 102 (anchorRowT 102 8 101))
      = some (.absent .anchorLost, .running, none)
    ∧ left (exec (.memoryAttemptDone none)
        (maintT { s with pfw := true } (.anchorConfirm .formatFirst .b 8#32) (.read 102) 1))
      = some (.absent .anchorLost, .quiescing, none) := by decide +kernel

/-- A copy write: the slot 0 clear is followed by the closing clear, the last body row by the closing write, a failed
row is recorded, and sixteen rows that are not the record end it with the first of them. -/
theorem test_copyWrite :
    let s : State := { waitingT .apply .draining with staging := { configT with base := 103#24 } }
    (nextOf (exec (.memoryAttemptDone none)
        (maintT s .slotZeroClear (.write 103 (freshRow 103 0#128)) 1))).map (fun t => (t.copyB, t.maint))
        = some (.invalid, some (.copyClear .b))
    ∧ (nextOf (exec (.memoryAttemptDone none)
        (maintT s (.copyBody .b 14) (.write 30 (freshRow 30 0#128)) 1))).map State.maint = some (some (.copyClose .b))
    ∧ (nextOf (exec (.memoryAttemptFail .new)
        (maintT s (.copyClose .b) (.write 31 (freshRow 31 0#128)) 2))).map (fun t => (t.journal, t.log.map FaultRecord.row))
        = some (.opened, [some 31])
    ∧ (nextOf (exec (.memoryAttemptDone none)
        (maintT s (.copyConfirm .b 15 (List.replicate 15 (freshRow 16 (configRowData s.applyRecord 0)))) (.read 31)
          1))).map (fun t => t.log.map FaultRecord.row) = some [some 17] := by decide +kernel

/-- The confirmation of a first APPLY: copy B follows copy A, and after copy B the activation is due. -/
theorem test_copyConfirmed :
    let r : ConfigRecord := { configT with generation := 1#32 }
    let rows (first n : Nat) : List Row := (List.range n).map fun i => freshRow (first + i) (configRowData r i)
    (nextOf (exec (.memoryAttemptDone none)
        (maintT { firstApplyT with mem := [(15, freshRow 15 (configRowData r 15))] } (.copyConfirm .a 15 (rows 0 15))
          (.read 15) 1))).map (fun t => (t.copyA, t.maint)) = some (.valid 1#32, some (.copyClear .b))
    ∧ (nextOf (exec (.memoryAttemptDone none)
        (maintT { firstApplyT with mem := [(31, freshRow 31 (configRowData r 15))] } (.copyConfirm .b 15 (rows 16 15))
          (.read 31) 1))).map (fun t => (t.copyB, t.activationDue)) = some (.valid 1#32, true) := by decide +kernel

/-! ## Freezing, power-fail, start and CKPT -/

/-- The cases of FREEZE. -/
theorem test_freeze :
    (nextOf (exec (.freeze 1#8) runningT)).map (fun t => t.freeze[(1 : Fin 16)]) = some true
    ∧ (nextOf (exec (.freeze 0#8) (recordsT runningT))).map State.response
      = some (.ready [0x03#8, 0x06#8, frameCrc [0x03#8, 0x06#8]])
    ∧ (nextOf (exec (.freeze 0#8) { runningT with job := some (jobT (.writing 0)) })).map State.response = some .pending
    ∧ (runningT.regions[(3 : Fin 16)]).mode = .off
    ∧ ({ lawfulT with deferredFreeze := some 1 } : State).writeStageOf 1 = false
    ∧ lawfulT.recordsInRegion (regionT 32 62 .journaled) = true
    ∧ runningT.recordsInRegion (regionT 32 62 .journaled) = false := by decide +kernel

theorem headParked_space : ({ runningT with queue := [entryT 40 0 .posted .spaceWait] } : State).headParked :=
  ⟨_, rfl, rfl⟩

theorem not_headParked_running : ¬ runningT.headParked := by
  rintro ⟨e, h, _⟩
  cases h

/-- PFW_ASSERT over a head in space-wait drops it. -/
theorem test_power_fail :
    (nextOf (exec .pfwAssert
        { runningT with queue := [entryT 40 0 .posted .spaceWait, entryT 41 1 .posted .notStarted] })).map
      (fun t => (t.operating, t.queue, t.log.map FaultRecord.slot)) = some (.quiescing, [], [some 2])
    ∧ (nextOf (exec .quiescedEntry { runningT with operating := .quiescing })).map State.operating = some .quiesced
    ∧ (nextOf (exec .pfwDeassert { runningT with operating := .quiesced, pfw := true })).map State.operating
      = some .running
    ∧ runningT.queueHasRoom = true ∧ runningT.ackMode = .posted
    ∧ ({ runningT with queue := List.replicate 8 (entryT 40 0 .posted .notStarted) } : State).queueHasRoom = false
    ∧ ({ runningT with active := some { configT with ack := .completed } } : State).queueHasRoom = true
    ∧ ({ runningT with active := some { configT with ack := .completed } } : State).ackMode = .completed := by
  decide +kernel

/-- START reads row 0, and a reset from a running part leaves the memory of an idle port. -/
theorem test_start :
    (nextOf (exec (.start true) State.reset)).map (fun t => (t.port, t.ckptHigh))
      = some (.inFlight { requester := .maint, op := .read 0, attempt := 1, timeout := 64#8, retries := 3#2, last := none },
          true)
    ∧ (nextOf (exec (.rstAssert .former) runningT)).map State.inReset = some true := by decide +kernel

/-- The cases of a checkpoint edge. -/
theorem test_checkpoint :
    (nextOf (exec .ckptEdge runningT)).map (fun t => (t.journal, t.longOp.map LongOp.origin))
      = some (.draining, some .line)
    ∧ (nextOf (exec .ckptEdge (waitingT .save .draining))).map State.ckptLatch = some true
    ∧ (nextOf (exec .ckptEdge { runningT with journal := .broken .rollBack })).map (fun t => t.log.map FaultRecord.kind)
      = some [.ckptDropped]
    ∧ 1 ≤ ((1#32 : Word) - (entryT 40 0 .posted .spaceWait).number).toNat := by decide +kernel

/-! ## The control link -/

/-- IDENT's payload, and a read transfer of it. -/
theorem test_ident :
    (nextOf (exec .ident runningT)).map State.response
      = some (.ready [0x00#8, 0x4E#8, 0x17#8, 0x22#8, 0x40#8, 0x01#8,
          frameCrc [0x00#8, 0x4E#8, 0x17#8, 0x22#8, 0x40#8, 0x01#8]])
    ∧ (nextOf (exec (.responseRead 4) runningT)).map State.linkOut
      = some [0xC3#8, 0x06#8, frameCrc [0x06#8], 0x00#8] := by decide +kernel

/-- Records are read once. -/
theorem test_records :
    (nextOf (exec .faultPop { runningT with log := [runningT.ckptFault], dropped := 3#8 })).map
      (fun t => (t.log, t.dropped)) = some ([], 0#8)
    ∧ (nextOf (exec .completion { runningT with
          completion := some ((LongOp.created .save .link false).record .done none none 7#32) })).map State.completion
      = some none
    ∧ runningT.log = [] ∧ runningT.completion = none := by decide +kernel

/-- The fields at the ends of the identifiers' ranges, and values at the ends of a width. -/
theorem test_hyps_fields :
    fieldValue configT 0x6F#8 = some 0#32 ∧ fieldValue configT 0x70#8 = none ∧ fieldValue configT 0x03#8 = some 101#32
      ∧ stagedWidth 0x01#8 = none ∧ stagedWidth 0x0A#8 = some 2 ∧ (3#32 : Word).toNat < 2 ^ 2 ∧ 2 ^ 2 ≤ (4#32 : Word).toNat
      ∧ (nextOf (exec (.cfgStage 0x0A#8 3#32) runningT)).map (fun t => t.staging.retries) = some 3#2
      ∧ (64 : Nat) ≤ (64#8 : Byte).toNat ∧ (63#8 : Byte).toNat < 64 := by decide +kernel

/-- The long commands' kinds, and the states in which one is taken, refused or answered BUSY. -/
theorem test_hyps_long : longCommandOf .save = some (.save, 2, false) ∧ longCommandOf (.resume 1#8) = some (.resume, 3, true)
    ∧ longCommandOf (.resume 2#8) = none ∧ OperatingState.running.takesLong .save = true
    ∧ OperatingState.unconfigured.takesLong .apply = true ∧ JournalState.opened.takes .save
    ∧ JournalState.takes (.absent .anchorLost) .format ∧ JournalState.takes (.broken .rollBack) .resume :=
  ⟨rfl, rfl, rfl, rfl, rfl, rfl, .inr (.inr (.inl rfl)), .rollBack, rfl⟩

/-- A long command is taken; a second one is answered BUSY. -/
theorem test_save_taken :
    (nextOf (exec .save runningT)).map (fun t => (t.journal, t.longOp)) =
      some (.draining, some (LongOp.created .save .link false))
    ∧ (nextOf (exec .save (waitingT .save .draining))).map State.response
      = some (.ready [0x02#8, frameCrc [0x02#8]]) := by decide +kernel

/-- Nothing is due in a running part: no drain ends, and no event of its own has its condition. -/
theorem test_hyps_events : (∀ o, ¬ runningT.drainEnded o) ∧ runningT.activationDue = false ∧ runningT.deferredFreeze = none
    ∧ runningT.operating ≠ .quiescing ∧ runningT.held = none ∧ lawfulT.job ≠ none :=
  ⟨fun o h => (nomatch (show (none : Option LongOp) = some o from h.2.1)), rfl, rfl, by decide, rfl, by decide⟩

/-- Events whose condition does not hold, each in a state that has the rest of it: a FREEZE deferred past a write
stage, a held write without room or at a closed port, a taken read, a head that is TAKEN, and an IDLE port. -/
theorem test_events_wait :
    let deferred : State :=
      { runningT with deferredFreeze := some 0, job := some (jobT (.writing 0)), queue := [entryT 40 0 .posted .taken] }
    let full : State :=
      { runningT with
        held := some (.write (addressT 40) (beatsT 4)), queue := List.replicate 8 (entryT 40 0 .posted .taken) }
    let closed : State :=
      { runningT with operating := .quiescing, held := some (.write (addressT 40) (beatsT 4)) }
    let taken : State :=
      { runningT with
        pendingRead := some { address := addressT 40, beats := 4, taken := true }
        queue := [entryT 63 0 .posted .taken] }
    nextOf (exec .freezeDeferredDecision deferred) = some deferred
    ∧ nextOf (exec .heldWriteAccept full) = some full ∧ nextOf (exec .heldWriteAccept closed) = some closed
    ∧ nextOf (exec .jobTake taken) = some taken ∧ nextOf (exec .holdTimerExpiry taken) = some taken
    ∧ nextOf (exec .attemptTimerExpiry taken) = some taken
    ∧ nextOf (exec (.abortAcknowledge .former) taken) = some taken := by decide +kernel

/-- Out of reset before the load has ended: acceptance is closed, and edits and long commands are turned away. -/
theorem test_hyps_starting :
    let s : State := { State.reset with inReset := false }
    s.operating = .starting ∧ s.active = none ∧ s.held = none ∧ s.pendingRead = none ∧ (∀ e ∈ s.queue, e.mark = .posted)
      ∧ (nextOf (exec .cfgCopy s)).map State.response = some (.ready [0x03#8, 0x01#8, frameCrc [0x03#8, 0x01#8]])
      ∧ (nextOf (exec .commit s)).map State.response = some (.ready [0x02#8, frameCrc [0x02#8]])
      ∧ (nextOf (exec (.frontReadRequest 0#28 1) s)).map State.held = some (some (.read 0#28 1))
      ∧ (nextOf (exec (.alertMask 63#8) s)).map State.response
        = some (.ready [0x03#8, 0x01#8, frameCrc [0x03#8, 0x01#8]]) := by decide +kernel

/-- The states in which a long command is refused: UNCONFIGURED, BROKEN, OPEN for RESUME, and ABSENT. -/
theorem test_hyps_refusals :
    (nextOf (exec .commit { runningT with operating := .unconfigured })).map State.response
      = some (.ready [0x03#8, 0x01#8, frameCrc [0x03#8, 0x01#8]])
    ∧ (nextOf (exec .save { runningT with journal := .broken .rollBack })).map State.response
      = some (.ready [0x03#8, 0x01#8, frameCrc [0x03#8, 0x01#8]])
    ∧ (nextOf (exec (.resume 0#8) runningT)).map State.response
      = some (.ready [0x03#8, 0x01#8, frameCrc [0x03#8, 0x01#8]])
    ∧ (nextOf (exec .format { runningT with journal := .absent .notConfigured })).map State.response
      = some (.ready [0x03#8, 0x02#8, frameCrc [0x03#8, 0x02#8]]) := by decide +kernel

/-- A pending latch at an end event: a COMMIT in OPEN, a dropped request in BROKEN. -/
theorem test_hyps_settle :
    (State.settleLatch { runningT with ckptLatch := true }).journal = .draining
      ∧ (State.settleLatch { runningT with ckptLatch := true, journal := .broken .rollBack }).log
        = [runningT.ckptFault] := by decide +kernel

/-- At taking: a waiting head under SAVE and COMMIT, and a discard. -/
theorem test_hyps_taking :
    (nextOf (exec .save { runningT with queue := [entryT 40 0 .posted .spaceWait], nextAcceptance := 1#32 })).map
      (fun t => t.completion.map CompletionRecord.reason) = some (some (some .queueHeld))
    ∧ (nextOf (exec .commit { runningT with queue := [entryT 40 0 .posted .spaceWait], nextAcceptance := 1#32 })).map
      (fun t => t.longOp.map LongOp.carried) = some (some 1)
    ∧ (nextOf (exec .rollback { runningT with queue := [entryT 40 0 .posted .notStarted, entryT 64 1 .posted .notStarted]
                                              nextAcceptance := 2#32 })).map
      (fun t => (t.longOp.map LongOp.discarded, t.queue.length)) = some (some 1, 1)
    ∧ runningT.resolvesJournaled (addressT 40) 4 = true ∧ runningT.resolvesJournaled (addressT 64) 4 = false := by
  decide +kernel

end Sys2Proof.Tests
end

/-! SUPPORT. The retry counter (R153): a command that does not end an attempt without success keeps it, a failed or
timed-out attempt raises it when a retry follows (R151), and a start makes it 0. -/
namespace Sys2Proof.Machine

/-- The counter saturates at 255 (R153). -/
theorem countUp_eq (n : BitVec 8) : countUp n = if n = 255#8 then 255#8 else n + 1#8 := by
  unfold countUp
  split
  · next h => exact h
  · rfl

/-! ## Commands that end an attempt without success -/

/-- The command ends the attempt `f` with FAIL (R149) or with TIMEOUT (R150). -/
def EndsAttempt (c : Instr) (s : State) (left : Residue) (f : Flight) : Prop :=
  (c = .memoryAttemptFail left ∧ s.port = .inFlight f) ∨ (c = .abortAcknowledge left ∧ s.port = .aborting f)

/-- FAIL and TIMEOUT are handled alike but for the kind of the failure (R151). -/
theorem EndsAttempt.exec_eq {c : Instr} {s : State} {left : Residue} {f : Flight} (h : EndsAttempt c s left f) :
    ∃ kind, exec c s = .next ((s.leaveResidue f.op left).attemptFailed f kind) := by
  obtain ⟨rfl, hp⟩ | ⟨rfl, hp⟩ := h
  · exact ⟨.fail, by simp only [exec, execMemoryAttemptFail, hp]⟩
  · exact ⟨.timeout, by simp only [exec, execAbortAcknowledge, hp]⟩

/-- A retry counts, and a final failure does not (R151, R153). -/
theorem State.attemptFailed_retryCounter (s : State) (f : Flight) (kind : MemFault) :
    (s.attemptFailed f kind).retryCounter =
      if f.attempt ≤ f.retries.toNat then countUp s.retryCounter else s.retryCounter := by
  unfold State.attemptFailed
  split
  · rfl
  · simp

/-- The retry counter after an attempt that ends without success. -/
theorem EndsAttempt.retryCounter_eq {c : Instr} {s t : State} {left : Residue} {f : Flight} (h : EndsAttempt c s left f)
    (he : exec c s = .next t) :
    t.retryCounter = if f.attempt ≤ f.retries.toNat then countUp s.retryCounter else s.retryCounter := by
  obtain ⟨kind, hk⟩ := h.exec_eq
  obtain rfl : _ = t := Host.Outcome.next.inj (hk.symm.trans he)
  simp [State.attemptFailed_retryCounter]

/-! ## Commands that keep the retry counter -/

/-- The next state that the outcome gives, if it gives one, has the retry counter of `s`. -/
def KeepsRetryCounter (s : State) (o : Host.Outcome State Fault Refusal) : Prop :=
  ∀ t, o = .next t → t.retryCounter = s.retryCounter

@[simp] theorem keepsRetryCounter_next (s t : State) :
    KeepsRetryCounter s (.next t) ↔ t.retryCounter = s.retryCounter := by
  simp [KeepsRetryCounter]

/-- A command on the link keeps the counter when its meaning out of reset does (R74, R176). -/
theorem keepsRetryCounter_onLink (s : State) {f : State → State} (hf : ∀ t, (f t).retryCounter = t.retryCounter) :
    KeepsRetryCounter s (.next (s.onLink f)) := by
  rw [keepsRetryCounter_next, State.onLink, apply_ite State.retryCounter, hf, ite_self]

/-- A completed attempt is no retry (R153). -/
theorem execMemoryAttemptDone_keepsRetryCounter (delivered : Option Row) (s : State) :
    KeepsRetryCounter s (execMemoryAttemptDone delivered s) := by
  unfold execMemoryAttemptDone
  split <;> simp

/-- A timer's expiry asks for the abort; whether a retry follows is decided at its acknowledge (R150). -/
theorem execAttemptTimerExpiry_keepsRetryCounter (s : State) : KeepsRetryCounter s (execAttemptTimerExpiry s) := by
  unfold execAttemptTimerExpiry
  split <;> simp

/-- An operation's first attempts are no retries (R153), so the execution of a long operation begins without one. -/
theorem execDrainEnd_keepsRetryCounter (s : State) : KeepsRetryCounter s (execDrainEnd s) := by
  unfold execDrainEnd
  split
  case isFalse => simp
  case isTrue =>
    split
    · simp
    · next o _ => cases o.kind <;> simp

/-- An answer of the device that ends no attempt is not taken (R149, R150). -/
theorem exec_eq_self_of_not_endsAttempt {c : Instr} {s : State} {left : Residue}
    (hc : c = .memoryAttemptFail left ∨ c = .abortAcknowledge left) (h : ∀ f, ¬ EndsAttempt c s left f) :
    exec c s = .next s := by
  obtain rfl | rfl := hc
  · rcases hp : s.port with _ | f | f
    · simp only [exec, execMemoryAttemptFail, hp]
    · exact absurd (.inl ⟨rfl, hp⟩) (h f)
    · simp only [exec, execMemoryAttemptFail, hp]
  · rcases hp : s.port with _ | f | f
    · simp only [exec, execAbortAcknowledge, hp]
    · simp only [exec, execAbortAcknowledge, hp]
    · exact absurd (.inr ⟨rfl, hp⟩) (h f)

/-- FAIL and TIMEOUT keep the counter when no retry follows: no attempt is outstanding, or the last one failed. -/
theorem keepsRetryCounter_of_noRetry {c : Instr} {s : State} {left : Residue}
    (hc : c = .memoryAttemptFail left ∨ c = .abortAcknowledge left)
    (hfinal : ∀ f, EndsAttempt c s left f → f.retries.toNat < f.attempt) : KeepsRetryCounter s (exec c s) := by
  intro t ht
  by_cases h : ∃ f, EndsAttempt c s left f
  · obtain ⟨f, hf⟩ := h
    rw [hf.retryCounter_eq ht, if_neg (Nat.not_le.mpr (hfinal f hf))]
  · rw [exec_eq_self_of_not_endsAttempt hc (not_exists.mp h)] at ht
    exact congrArg State.retryCounter (Host.Outcome.next.inj ht).symm

/-- Only a retry and a reset change the retry counter (R153). -/
theorem exec_keepsRetryCounter (c : Instr) (s : State) (hreset : ∀ left, c ≠ .rstAssert left)
    (hfinal : ∀ left f, EndsAttempt c s left f → f.retries.toNat < f.attempt) : KeepsRetryCounter s (exec c s) := by
  cases c
  case rstAssert left => exact absurd rfl (hreset left)
  case memoryAttemptFail left => exact keepsRetryCounter_of_noRetry (.inl rfl) (hfinal left)
  case abortAcknowledge left => exact keepsRetryCounter_of_noRetry (.inr rfl) (hfinal left)
  case memoryAttemptDone delivered => exact execMemoryAttemptDone_keepsRetryCounter delivered s
  case attemptTimerExpiry => exact execAttemptTimerExpiry_keepsRetryCounter s
  case drainEnd => exact execDrainEnd_keepsRetryCounter s
  -- The front port, the Row Engine, the part's own steps and the lines.
  case frontReadRequest | frontWriteRequest | heldWriteAccept | holdTimerExpiry | freezeDeferredDecision =>
    exact (keepsRetryCounter_next ..).mpr (by simp)
  case jobTake | applyActivation | quiescedEntry | ckptEdge | pfwAssert | pfwDeassert | start =>
    exact (keepsRetryCounter_next ..).mpr (by simp [apply_ite State.retryCounter])
  -- The control link.
  case frameError | unknownCommand =>
    exact keepsRetryCounter_onLink s fun t => by simp [apply_ite State.retryCounter]
  case responseRead | status | ident | completion | faultPop | cfgRead | cfgStage | cfgCopy | alertMask | freeze |
      save | release | undo | commit | rollback | resume | format | apply =>
    exact keepsRetryCounter_onLink s fun t => by simp

/-! ## The statement -/

/-- STATUS carries the retry counter as its byte 40 (R198, R203). -/
theorem State.statusPayload_retryCounter (s : State) : s.statusPayload[40]? = some s.retryCounter := rfl

/-- Settles O14, from what FAIL and TIMEOUT make of the counter and from the lemma that every command without a retry
keeps it. -/
theorem retryCounterCountsRetries : Obligations.RetryCounterCountsRetries := by
  refine ⟨fun c s t he => ⟨?retry, ?start, ?kept⟩, State.statusPayload_retryCounter⟩
  case retry =>
    rintro ⟨left, f, hends, hretry⟩
    rw [EndsAttempt.retryCounter_eq hends he, if_pos hretry, countUp_eq]
  case start =>
    rintro ⟨left, rfl⟩
    exact congrArg State.retryCounter (Host.Outcome.next.inj he).symm
  case kept =>
    intro hreset hfinal
    exact exec_keepsRetryCounter c s hreset hfinal t he

end Sys2Proof.Machine

/-! SUPPORT. The frame CRC (R177): a register fed with its own bits, most significant first, shifts out and leaves zero,
so a message followed by its CRC has no residue. -/
namespace Sys2Proof.Machine

/-- The register shifted so far that its bit `n` leads. -/
theorem msb_shiftLeft_eq_getLsbD {w n : Nat} (reg : BitVec w) (h : n < w) :
    (reg <<< (w - (n + 1))).msb = reg.getLsbD n := by
  have hlast : w - 1 - (w - (n + 1)) = n := by omega
  have hbound : w - 1 < w ∧ ¬ w - 1 < w - (n + 1) := by omega
  rw [BitVec.msb_eq_getLsbD_last, BitVec.getLsbD_shiftLeft, hlast]
  simp [hbound]

/-- A message bit equal to the leading bit adds no polynomial (R177). -/
theorem crcStep_msb {w : Nat} (poly reg : BitVec w) : crcStep poly reg reg.msb = reg <<< 1 := by
  simp [crcStep]

/-- A register fed with its own remaining `n` bits is zero at the end, whatever the polynomial. -/
theorem crcFeed_self {w n : Nat} (poly reg : BitVec w) (h : n ≤ w) : crcFeed poly reg n (reg <<< (w - n)) = 0#w := by
  induction n with
  | zero => exact BitVec.shiftLeft_eq_zero (Nat.sub_zero w).ge
  | succ n ih =>
    calc crcFeed poly reg (n + 1) (reg <<< (w - (n + 1)))
      _ = crcFeed poly reg n (reg <<< (w - (n + 1)) <<< 1) := by
        rw [crcFeed, ← msb_shiftLeft_eq_getLsbD reg h, crcStep_msb]
      _ = crcFeed poly reg n (reg <<< (w - n)) := by
        rw [← BitVec.shiftLeft_add, show w - (n + 1) + 1 = w - n by omega]
      _ = 0#w := ih (Nat.le_of_succ_le h)

theorem frameCrc_concat (bytes : List Byte) (b : Byte) :
    frameCrc (bytes ++ [b]) = crcFeed 0x07#8 b 8 (frameCrc bytes) := by
  simp [frameCrc]

/-- A byte is fed bit by bit, most significant bit first (R177). -/
theorem crcFeed_byte (reg b : Byte) :
    crcFeed 0x07#8 b 8 reg =
      ([7, 6, 5, 4, 3, 2, 1, 0] : List Nat).foldl (fun r k => crcStep 0x07#8 r (b.getLsbD k)) reg := rfl

/-- The check over a frame's bytes and its CRC byte is zero (R177). -/
theorem frameCrc_concat_frameCrc (bytes : List Byte) : frameCrc (bytes ++ [frameCrc bytes]) = 0#8 := by
  rw [frameCrc_concat]
  simpa using crcFeed_self 0x07#8 (frameCrc bytes) (le_refl 8)

/-- A response frame ends with the CRC over its status byte and payload (R177, R180). -/
theorem getLast?_responseFrame (status : Status) (payload : List Byte) :
    (responseFrame status payload).getLast? = some (frameCrc (status.code :: payload)) :=
  List.getLast?_concat

/-- Settles O17: the procedure from the feed of one more byte, the zero residue from a register that shifts itself
out. -/
theorem frameCrcLeavesNoResidue : Obligations.FrameCrcLeavesNoResidue := by
  refine ⟨rfl, fun bytes b => ?procedure, by decide +kernel, frameCrc_concat_frameCrc, getLast?_responseFrame⟩
  case procedure =>
    rw [frameCrc_concat, crcFeed_byte]
    rfl

end Sys2Proof.Machine

/-! SUPPORT. The checks of a command transfer in the order of R178, one lemma for each check that decides the response;
that a code byte with as many arguments as it takes names a link command (R202); and the response that a failed frame
leaves (R178, R179). -/
namespace Sys2Proof

/-! ## What a transfer is taken as -/

section
variable {code : Byte} {rest : List Byte}

/-- The first check: whole bytes, at least two of them (R178). -/
theorem decodeTransfer_of_cut_or_single {cut : Bool} (hread : code ≠ 0x5A#8) (h : cut = true ∨ rest = []) :
    decodeTransfer (code :: rest) cut = some (.frameError (code :: rest) cut) := by
  simp [decodeTransfer, hread, h]

/-- The second check: the frame CRC (R178). -/
theorem decodeTransfer_of_badCrc (hread : code ≠ 0x5A#8) (hne : rest ≠ [])
    (hcrc : Machine.frameCrc (code :: rest) ≠ 0#8) :
    decodeTransfer (code :: rest) false = some (.frameError (code :: rest) false) := by
  simp [decodeTransfer, hread, hne, hcrc]

/-- The third check: the command code (R178). -/
theorem decodeTransfer_of_unknownCode (hread : code ≠ 0x5A#8) (hne : rest ≠ [])
    (hcrc : Machine.frameCrc (code :: rest) = 0#8) (hcode : argumentCount code = none) :
    decodeTransfer (code :: rest) false = some (.unknownCommand (code :: rest)) := by
  simp [decodeTransfer, hread, hne, hcrc, hcode]

/-- The fourth check: the command's length (R178). -/
theorem decodeTransfer_of_badLength {n : Nat} (hread : code ≠ 0x5A#8) (hne : rest ≠ [])
    (hcrc : Machine.frameCrc (code :: rest) = 0#8) (hcode : argumentCount code = some n) (hlen : rest.length ≠ n + 1) :
    decodeTransfer (code :: rest) false = some (.frameError (code :: rest) false) := by
  simp [decodeTransfer, hread, hne, hcrc, hcode, hlen]

/-- A transfer that passes the four checks is the command of its code and argument bytes (R178, R202). -/
theorem decodeTransfer_of_checked {n : Nat} {c : Instr} (hread : code ≠ 0x5A#8)
    (hcrc : Machine.frameCrc (code :: rest) = 0#8) (hcode : argumentCount code = some n) (hlen : rest.length = n + 1)
    (hc : commandOf code rest.dropLast = some c) : decodeTransfer (code :: rest) false = some c := by
  have hne : rest ≠ [] := List.ne_nil_of_length_eq_add_one hlen
  simp [decodeTransfer, hread, hne, hcrc, hcode, hlen, hc]

end

/-- A byte is the literal of its value: a code matched as a number is then matched as a byte. -/
theorem byte_eq_ofNat {b : Byte} {n : Nat} (h : b.toNat = n) : b = BitVec.ofNat 8 n := by
  simp [← h]

/-- Every code of the table, with as many argument bytes as it takes, names a link command (R202). The cases are the
table's codes, in its order, by how many argument bytes they take. -/
theorem commandOf_of_argumentCount {code : Byte} {args : List Byte} (h : argumentCount code = some args.length) :
    ∃ c, commandOf code args = some c ∧ (commandBody c).isSome = true := by
  unfold argumentCount at h
  split at h
  case h_18 => cases h
  -- CFG_READ
  case h_6 hcode =>
    obtain ⟨selector, identifier, rfl⟩ := List.length_eq_two.mp (Option.some.inj h).symm
    obtain rfl := byte_eq_ofNat hcode
    exact ⟨_, rfl, rfl⟩
  -- CFG_STAGE
  case h_7 hcode =>
    obtain ⟨identifier, value, rfl, hvalue⟩ := List.length_eq_succ_iff.mp (Option.some.inj h).symm
    obtain ⟨a, b, c, d, rfl⟩ := List.length_eq_four.mp hvalue
    obtain rfl := byte_eq_ofNat hcode
    exact ⟨_, rfl, rfl⟩
  -- ALERT_MASK, FREEZE and RESUME
  case h_8 hcode | h_9 hcode | h_16 hcode =>
    obtain ⟨argument, rfl⟩ := List.length_eq_one_iff.mp (Option.some.inj h).symm
    obtain rfl := byte_eq_ofNat hcode
    exact ⟨_, rfl, rfl⟩
  -- The commands without arguments
  all_goals
    next hcode =>
      obtain rfl := List.length_eq_zero_iff.mp (Option.some.inj h).symm
      obtain rfl := byte_eq_ofNat hcode
      exact ⟨_, rfl, rfl⟩

end Sys2Proof

namespace Sys2Proof.Machine

/-! ## What a failed frame leaves -/

/-- A command's response takes the place of the last one and is shifted out after the lead byte (R176, R179). -/
theorem State.respond_eq_responded (s : State) (clocked : Nat) (status : Status) (payload : List Byte) :
    s.respond clocked status payload = s.responded clocked status.code payload := rfl

/-- Out of reset the link is served (R74, R176). -/
theorem State.onLink_of_not_inReset {s : State} (h : s.inReset = false) (f : State → State) : s.onLink f = f s := by
  simp [State.onLink, h]

theorem exec_frameError {s : State} {bytes : List Byte} (cut : Bool) (h : s.inReset = false) (hne : bytes ≠ []) :
    exec (.frameError bytes cut) s = .next (s.responded bytes.length 0x04#8 []) := by
  simp [exec, execFrameError, State.onLink_of_not_inReset h, hne, State.respond_eq_responded, Status.code]

theorem exec_unknownCommand {s : State} {bytes : List Byte} (h : s.inReset = false) (hne : bytes ≠ []) :
    exec (.unknownCommand bytes) s = .next (s.responded bytes.length 0x05#8 []) := by
  simp [exec, execUnknownCommand, State.onLink_of_not_inReset h, hne, State.respond_eq_responded, Status.code]

/-! ## The statement -/

/-- Settles O16, check by check in the order of R178; a transfer that passes all four carries a code and as many
argument bytes as it takes. -/
theorem frameChecksInOrder : Obligations.FrameChecksInOrder := by
  refine ⟨fun code rest cut hread => ⟨decodeTransfer_of_cut_or_single hread, ?crc, ?unknown, ?known⟩,
    fun s bytes cut hreset hne => ⟨exec_frameError cut hreset hne, exec_unknownCommand hreset hne⟩⟩
  case crc =>
    rintro rfl hne hcrc
    exact decodeTransfer_of_badCrc hread hne hcrc
  case unknown =>
    rintro rfl hne hcrc hcode
    exact decodeTransfer_of_unknownCode hread hne hcrc hcode
  case known =>
    rintro n rfl hne hcrc hcode
    refine ⟨decodeTransfer_of_badLength hread hne hcrc hcode, fun hlen => ?_⟩
    have hargs : argumentCount code = some rest.dropLast.length := by simp [hcode, hlen]
    obtain ⟨c, hc, hbody⟩ := commandOf_of_argumentCount hargs
    exact ⟨c, decodeTransfer_of_checked hread hcrc hcode hlen hc, hbody⟩

end Sys2Proof.Machine

/-! SUPPORT. The six raw alert conditions bit by bit (R195), the ALERT line as an unmasked condition out of reset
(R197), and the decision of ALERT_MASK check by check (R182). -/
namespace Sys2Proof.Machine

/-! ## The raw conditions -/

/-- Six flags put together, the last one as bit 0. -/
theorem getLsbD_ofBool_append (f0 f1 f2 f3 f4 f5 : Bool) :
    let flags : BitVec 6 :=
      BitVec.ofBool f5 ++ BitVec.ofBool f4 ++ BitVec.ofBool f3 ++ BitVec.ofBool f2 ++ BitVec.ofBool f1
        ++ BitVec.ofBool f0
    flags.getLsbD 0 = f0 ∧ flags.getLsbD 1 = f1 ∧ flags.getLsbD 2 = f2 ∧ flags.getLsbD 3 = f3
      ∧ flags.getLsbD 4 = f4 ∧ flags.getLsbD 5 = f5 := by
  revert f0 f1 f2 f3 f4 f5
  decide

/-- The conditions stand in the vector by their numbers (R195). -/
theorem State.rawConditions_getLsbD (s : State) :
    s.rawConditions.getLsbD 0 = !s.log.isEmpty ∧ s.rawConditions.getLsbD 1 = s.completion.isSome
      ∧ s.rawConditions.getLsbD 2 = s.watermarkHolds ∧ s.rawConditions.getLsbD 3 = s.parked.isSome
      ∧ s.rawConditions.getLsbD 4 = s.journalBrokenHolds ∧ s.rawConditions.getLsbD 5 = s.configDegraded :=
  getLsbD_ofBool_append ..

/-- WATERMARK is measured against the active configuration, and holds in neither ABSENT nor SCANNING (R21). -/
theorem State.watermarkHolds_iff (s : State) :
    s.watermarkHolds = true ↔
      ∃ c, s.active = some c ∧ c.watermark.toNat ≤ s.tail ∧ s.journal ≠ .scanning
        ∧ ∀ reason, s.journal ≠ .absent reason := by
  unfold State.watermarkHolds
  cases s.active with
  | none => simp
  | some c => cases s.journal <;> simp

/-- JOURNAL_BROKEN holds in BROKEN and where an anchor is lost or does not match (R2). -/
theorem State.journalBrokenHolds_iff (s : State) :
    s.journalBrokenHolds = true ↔
      (∃ action, s.journal = .broken action) ∨ s.journal = .absent .anchorLost
        ∨ s.journal = .absent .anchorMismatch := by
  unfold State.journalBrokenHolds
  cases s.journal with
  | absent reason => cases reason <;> simp
  | broken action => simp
  | scanning | opened | draining | committing | rollingBack | undoing | formatting => simp

/-! ## The ALERT line -/

/-- An unmasked condition holds when some raw condition holds whose mask bit is clear (R197, R198). -/
theorem State.maskedConditions_ne_zero_iff (s : State) :
    s.maskedConditions ≠ 0#6 ↔
      ∃ k, k < 6 ∧ s.rawConditions.getLsbD k = true ∧ s.alertMask.getLsbD k = false := by
  have hbit : ∀ k < 6, s.maskedConditions.getLsbD k = (s.rawConditions.getLsbD k && !s.alertMask.getLsbD k) := by
    intro k hk
    simp [State.maskedConditions, hk]
  constructor
  · intro hne
    by_contra! hnone
    refine hne (BitVec.eq_of_getLsbD_eq fun k hk => ?_)
    rw [hbit k hk, BitVec.getLsbD_zero]
    simpa using hnone k hk
  · rintro ⟨k, hk, hraw, hclear⟩ hzero
    have hset : s.maskedConditions.getLsbD k = true := by rw [hbit k hk, hraw, hclear]; rfl
    simp [hzero] at hset

theorem State.alertAsserted_iff (s : State) :
    s.alertAsserted = true ↔
      s.inReset = false ∧ ∃ k, k < 6 ∧ s.rawConditions.getLsbD k = true ∧ s.alertMask.getLsbD k = false := by
  simp [State.alertAsserted, ← State.maskedConditions_ne_zero_iff]

/-! ## ALERT_MASK -/

/-- The argument's two high bits are clear exactly when it is below 64. -/
theorem highBits_eq_zero_iff (mask : Byte) : mask.extractLsb' 6 2 = 0#2 ↔ mask.toNat < 64 := by
  have hshift : (mask.extractLsb' 6 2).toNat = mask.toNat / 2 ^ 6 % 2 ^ 2 := by
    rw [BitVec.extractLsb'_toNat, Nat.shiftRight_eq_div_pow]
  bv_omega

theorem State.loadEnded_iff (s : State) : s.loadEnded = true ↔ s.operating ≠ .starting ∨ s.active ≠ none := by
  simp [State.loadEnded, Option.isSome_iff_ne_none]

/-- Out of reset the link serves ALERT_MASK (R74, R182). -/
theorem exec_alertMask {s : State} (mask : Byte) (h : s.inReset = false) :
    exec (.alertMask mask) s = .next (s.setAlertMask mask) := by
  simp only [exec, execAlertMask, State.onLink_of_not_inReset h]

/-- The first check: the argument's high bits (R182). -/
theorem State.setAlertMask_of_highBit (s : State) {mask : Byte} (h : 64 ≤ mask.toNat) :
    s.setAlertMask mask = s.responded 3 0x03#8 [0x05#8] := by
  have hbits : mask.extractLsb' 6 2 ≠ 0#2 := (highBits_eq_zero_iff mask).not.mpr h.not_gt
  rw [State.setAlertMask, if_pos hbits]
  rfl

/-- The second check: the load has ended (R182). -/
theorem State.setAlertMask_of_loading {s : State} {mask : Byte} (h : mask.toNat < 64) (hload : s.loadEnded = false) :
    s.setAlertMask mask = s.responded 3 0x03#8 [0x01#8] := by
  simp only [State.setAlertMask, (highBits_eq_zero_iff mask).mpr h, hload]
  rfl

/-- An ALERT_MASK that passes both checks sets the mask at once (R182). -/
theorem State.setAlertMask_of_loadEnded {s : State} {mask : Byte} (h : mask.toNat < 64) (hload : s.loadEnded = true) :
    s.setAlertMask mask = { s with alertMask := mask.setWidth 6 }.responded 3 0x00#8 [] := by
  have hlow : mask.extractLsb' 0 6 = mask.setWidth 6 := BitVec.setWidth_eq_extractLsb' (by decide) |>.symm
  simp only [State.setAlertMask, (highBits_eq_zero_iff mask).mpr h, hload, hlow]
  rfl

/-! ## The statement -/

/-- Settles O23: the line from the masked conditions, the conditions bit by bit, and ALERT_MASK check by check. -/
theorem alertFollowsMaskAndConditions : Obligations.AlertFollowsMaskAndConditions := by
  refine ⟨⟨State.alertAsserted_iff, fun s => ?conditions⟩, fun s mask hreset => ?command⟩
  case conditions =>
    obtain ⟨hlog, hcompletion, hwatermark, hparked, hbroken, hdegraded⟩ := s.rawConditions_getLsbD
    rw [hlog, hcompletion, hwatermark, hparked, hbroken, hdegraded]
    exact ⟨by simp, Option.isSome_iff_ne_none, s.watermarkHolds_iff, Option.isSome_iff_ne_none,
      s.journalBrokenHolds_iff, Iff.rfl⟩
  case command =>
    rw [exec_alertMask mask hreset]
    refine ⟨fun h => ?highBit, fun h hstarting hnone => ?loading, fun h hended => ?set⟩
    case highBit => rw [s.setAlertMask_of_highBit h]
    case loading =>
      have hload : s.loadEnded = false := by
        rw [Bool.eq_false_iff, ne_eq, s.loadEnded_iff]
        simp [hstarting, hnone]
      rw [State.setAlertMask_of_loading h hload]
    case set => rw [State.setAlertMask_of_loadEnded h (s.loadEnded_iff.mpr hended)]

end Sys2Proof.Machine

/-! SUPPORT. What a command's meaning can do to the fault log, the post queue, the bus, the freeze flags and the memory
port, said once: a chain of filings, acceptances, removals from the queue, flags set and port requests. Every composed
operation of the model is such a chain, so a law about these blocks is proved for each link of the chain alone. -/
namespace Sys2Proof.Machine

set_option Elab.async false

/-! ## The chain -/

/-- What of the state the chain speaks of: the fault log, the post queue, the bus, the freeze flags, and the port with
the waiting request of FRONT; with it what no chain touches, the rows of the memory and the waiting commands. -/
def State.face (s : State) :
    (List FaultRecord × BitVec 8) × (List Entry × Word) × (Option Request × Option PendingRead) × Vector Bool 16
      × (PortState × Option RowOp) × Memory × List Instr :=
  ((s.log, s.dropped), (s.queue, s.nextAcceptance), (s.held, s.pendingRead), s.freeze, (s.port, s.waitFront), s.mem,
    s.pending)

section
variable {u t : State} (h : t.face = u.face)
include h

theorem State.face_log : t.log = u.log := congrArg (·.1.1) h

theorem State.face_dropped : t.dropped = u.dropped := congrArg (·.1.2) h

theorem State.face_queue : t.queue = u.queue := congrArg (·.2.1.1) h

theorem State.face_nextAcceptance : t.nextAcceptance = u.nextAcceptance := congrArg (·.2.1.2) h

theorem State.face_held : t.held = u.held := congrArg (·.2.2.1.1) h

theorem State.face_pendingRead : t.pendingRead = u.pendingRead := congrArg (·.2.2.1.2) h

theorem State.face_freeze : t.freeze = u.freeze := congrArg (·.2.2.2.1) h

theorem State.face_port : t.port = u.port := congrArg (·.2.2.2.2.1.1) h

theorem State.face_mem : t.mem = u.mem := congrArg (·.2.2.2.2.2.1) h

theorem State.face_pending : t.pending = u.pending := congrArg (·.2.2.2.2.2.2) h

end

/-- What an entry keeps from its acceptance: its number and its mark (R115, R117). -/
def Entry.tag (e : Entry) : Word × AckMode := (e.number, e.mark)

/-- The state is reached from `s` by a chain of elementary effects in which only the requester `r` asks for the port. -/
inductive Effect (r : Requester) (s : State) : State → Prop
  /-- Nothing has happened yet. -/
  | refl : Effect r s s
  /-- Something outside the log, the queue, the bus, the flags and the port changes. -/
  | quiet {u t : State} (h : Effect r s u) (hface : t.face = u.face) : Effect r s t
  /-- A record is filed (R192). -/
  | file {u : State} (h : Effect r s u) (f : FaultRecord) : Effect r s (u.file f)
  /-- The held write is accepted when it can be (R115). -/
  | accept {u : State} (h : Effect r s u) : Effect r s u.acceptHeldWrite
  /-- Entries leave the queue, or change what they do not keep from their acceptance (R117). -/
  | thin {u : State} (h : Effect r s u) (q : List Entry)
      (hq : (q.map Entry.tag).Sublist (u.queue.map Entry.tag)) : Effect r s { u with queue := q }
  /-- The held request is refused (R82, R112, R123). -/
  | dropHeld {u : State} (h : Effect r s u) : Effect r s { u with held := none }
  /-- The held request is taken in as acceptance opens (R114). -/
  | takeInHeld {u : State} (h : Effect r s u) : Effect r s u.takeInHeld
  /-- The pending read is taken, or cleared (R120, R121). -/
  | read {u : State} (h : Effect r s u) (p : Option PendingRead) (hp : p.isSome = true → u.pendingRead.isSome = true) :
      Effect r s { u with pendingRead := p }
  /-- A freeze flag is set (R105, R106). -/
  | flag {u : State} (h : Effect r s u) (region : Fin 16) : Effect r s { u with freeze := u.freeze.set region true }
  /-- The requester asks for the port (R155). -/
  | request {u : State} (h : Effect r s u) (op : RowOp) : Effect r s (u.requestPort r op)

section
variable {r : Requester} {s u : State}

/-- A record update outside what the chain speaks of is quiet, by definition. -/
theorem Effect.same {t : State} (h : Effect r s u) (hface : t.face = u.face := by rfl) : Effect r s t :=
  h.quiet hface

/-! ## The Front Port Unit -/

theorem Effect.fileTogether (h : Effect r s u) (f g : FaultRecord) : Effect r s (u.fileTogether f g) := by
  unfold State.fileTogether
  split
  · exact ((h.file f).file g).same
  · exact ((h.file g).file f).same

theorem Effect.answer (h : Effect r s u) (okay : Bool) (beats : List Word) : Effect r s (u.answer okay beats) :=
  h.same

theorem Effect.answerRefused (h : Effect r s u) (q : Request) : Effect r s (u.answerRefused q) := h.same

theorem Effect.retireHead (h : Effect r s u) (okay : Bool) : Effect r s (u.retireHead okay) := by
  unfold State.retireHead
  split
  · exact h
  · next e rest hq =>
    have hrest : Effect r s { u with queue := rest, headHeld := false } :=
      (h.thin rest (by simp [hq])).same
    dsimp only
    split
    · exact hrest.accept
    · exact (hrest.answer okay []).accept

theorem Effect.count (h : Effect r s u) (f : LongOp → LongOp) : Effect r s (u.count f) := h.same

theorem Effect.discard (h : Effect r s u) (p : Entry → Bool) : Effect r s (u.discard p) := by
  have hq : Effect r s { u with queue := u.queue.filter fun e => !p e } :=
    h.thin _ (List.filter_sublist.map _)
  unfold State.discard
  dsimp only
  split
  · exact hq.same.accept
  · exact hq.same.accept

theorem Effect.carry (h : Effect r s u) : Effect r s u.carry := by
  unfold State.carry
  split
  · exact h
  · next e rest hq =>
    exact (h.thin ({ e with state := .notStarted } :: rest) (by simp [hq, Entry.tag])).same

theorem Effect.dropQueue (h : Effect r s u) : Effect r s u.dropQueue := by
  unfold State.dropQueue
  split
  · exact h
  · dsimp only
    split
    · exact ((h.file _).thin [] (List.nil_sublist _)).same
    · exact ((h.file _).thin [] (List.nil_sublist _)).same

theorem Effect.dropIfWaiting (h : Effect r s u) : Effect r s u.dropIfWaiting := by
  unfold State.dropIfWaiting
  split
  · exact h.dropQueue
  · exact h

theorem Effect.holdExpires (h : Effect r s u) : Effect r s u.holdExpires := by
  unfold State.holdExpires
  split
  · exact h
  · exact (h.dropHeld.file _).answerRefused _
  · exact (((h.read none (by simp)).same).file _).answer _ _
  · exact (h.file _).retireHead _

/-! ## Long operations -/

theorem Effect.enterQuiescing (h : Effect r s u) : Effect r s u.enterQuiescing :=
  Effect.dropIfWaiting h.same

theorem Effect.enterRunning (h : Effect r s u) : Effect r s u.enterRunning := by
  unfold State.enterRunning
  split
  · exact Effect.enterQuiescing h.same
  · exact h.same

theorem Effect.startOperation (h : Effect r s u) (kind : OpKind) (origin : Origin) (skip : Bool) :
    Effect r s (u.startOperation kind origin skip) :=
  h.quiet (by simp [State.face])

theorem Effect.takeCommit (h : Effect r s u) (origin : Origin) : Effect r s (u.takeCommit origin) := by
  unfold State.takeCommit
  dsimp only
  split
  · exact (h.startOperation _ _ _).carry
  · exact h.startOperation _ _ _

theorem Effect.settleLatch (h : Effect r s u) : Effect r s u.settleLatch := by
  unfold State.settleLatch
  split
  · dsimp only
    split
    · exact Effect.takeCommit h.same _
    · exact Effect.file h.same _
  · exact h

theorem Effect.endStartRunning (h : Effect r s u) : Effect r s u.endStartRunning :=
  Effect.enterRunning (Effect.settleLatch h.same)

theorem Effect.leaveUnconfigured (h : Effect r s u) : Effect r s u.leaveUnconfigured := by
  unfold State.leaveUnconfigured
  split
  · exact h.enterRunning
  · exact h

theorem Effect.endOperation (h : Effect r s u) (journal : JournalState) (result : OpResult) (reason : Option Reason)
    (fault : Option FaultKind) : Effect r s (u.endOperation journal result reason fault) := by
  unfold State.endOperation
  split
  · exact h
  · dsimp only
    split
    · exact Effect.endStartRunning h.same
    · exact Effect.leaveUnconfigured (Effect.settleLatch h.same)

theorem Effect.refuseOperation (h : Effect r s u) (reason : Reason) : Effect r s (u.refuseOperation reason) :=
  h.endOperation _ _ _ _

theorem Effect.failOperation (h : Effect r s u) (journal : JournalState) (kind : FaultKind) :
    Effect r s (u.failOperation journal kind) :=
  Effect.endOperation (h.quiet (by simp [State.face])) _ _ _ _

theorem Effect.drainAction (h : Effect r s u) : Effect r s u.drainAction := by
  unfold State.drainAction
  split
  · exact h
  · next o _ =>
    split
    · cases o.kind
      case commit => exact h.carry
      case rollback => exact h.discard _
      case undo =>
        dsimp only
        split
        · exact h.refuseOperation _
        · exact h.discard _
      case save | release | apply => exact h.refuseOperation _
      case format =>
        dsimp only
        split
        · exact h.refuseOperation _
        · exact h
      case resume => exact h
    · exact h

theorem Effect.takeOperation (h : Effect r s u) (kind : OpKind) (origin : Origin) (skip : Bool) :
    Effect r s (u.takeOperation kind origin skip) := by
  have hstart := h.startOperation kind origin skip
  refine Effect.drainAction ?_
  cases kind
  case rollback => exact hstart.discard _
  case undo =>
    dsimp only
    split
    · exact hstart
    · exact hstart.discard _
  case save | release | commit | resume | format | apply => exact hstart

theorem Effect.spaceWaitEntered (h : Effect r s u) : Effect r s u.spaceWaitEntered := by
  have hc : Effect r s { u with freeCount := u.freeCount + 1 } := h.same
  unfold State.spaceWaitEntered
  split
  · dsimp only
    split
    · exact hc.dropIfWaiting
    · exact hc.drainAction.dropIfWaiting
  · exact h.drainAction.dropIfWaiting

theorem Effect.decideIfDue (h : Effect r s u) : Effect r s u.decideIfDue := by
  unfold State.decideIfDue
  split
  · exact h
  · next region _ =>
    split
    · exact h
    · unfold State.decideDeferred
      dsimp only
      split
      · exact h.same
      · exact (h.flag region).same

end

/-! ## Work on MAINT -/

section
variable {s u : State}

theorem Effect.runMaint (h : Effect .maint s u) (task : MaintTask) (op : RowOp) : Effect .maint s (u.runMaint task op) :=
  Effect.request h.same op

theorem Effect.writeAnchor (h : Effect .maint s u) (goal : AnchorGoal) (c : Copy) (epoch : Word) :
    Effect .maint s (u.writeAnchor goal c epoch) :=
  Effect.runMaint (h.quiet (by simp [State.face])) _ _

theorem Effect.startAdvance (h : Effect .maint s u) : Effect .maint s u.startAdvance := by
  unfold State.startAdvance
  split
  · exact h.runMaint _ _
  · exact h.writeAnchor _ _ _

theorem Effect.advanceSucceeded (h : Effect .maint s u) (epoch : Word) : Effect .maint s (u.advanceSucceeded epoch) :=
  Effect.endOperation h.same _ _ _ _

theorem Effect.journalLost (h : Effect .maint s u) (kind : FaultKind) : Effect .maint s (u.journalLost kind) :=
  Effect.failOperation h.same _ _

theorem Effect.restoreNext (h : Effect .maint s u) : Effect .maint s u.restoreNext := by
  unfold State.restoreNext
  split
  · exact h.runMaint _ _
  · split
    · exact h.endOperation _ _ _ _
    · exact h.startAdvance

theorem Effect.restoreStopped (h : Effect .maint s u) (j : Nat) (kind : FaultKind) :
    Effect .maint s (u.restoreStopped j kind) :=
  (h.file _).failOperation _ _

theorem Effect.dropRecord (h : Effect .maint s u) : Effect .maint s u.dropRecord := h.quiet (by simp [State.face])

theorem Effect.imageRead (h : Effect .maint s u) (j : Nat) (image : Row) : Effect .maint s (u.imageRead j image) := by
  unfold State.imageRead
  split
  · split
    · exact h
    · exact h.runMaint _ _
  · split
    · exact h
    · split
      · exact ((h.file _).dropRecord.count _).restoreNext
      · exact h.restoreStopped _ _

theorem Effect.targetWritten (h : Effect .maint s u) : Effect .maint s u.targetWritten :=
  (h.dropRecord.count _).restoreNext

theorem Effect.enterRollingBack (h : Effect .maint s u) : Effect .maint s u.enterRollingBack :=
  Effect.restoreNext h.same

theorem Effect.enterFormatting (h : Effect .maint s u) : Effect .maint s u.enterFormatting :=
  Effect.runMaint h.same _ _

theorem Effect.formatFailed (h : Effect .maint s u) (kind : FaultKind) : Effect .maint s (u.formatFailed kind) :=
  Effect.failOperation h.same _ _

theorem Effect.formatHeaders (h : Effect .maint s u) (k : Nat) (greatest : Word) :
    Effect .maint s (u.formatHeaders k greatest) := by
  unfold State.formatHeaders
  split
  · exact h.runMaint _ _
  · unfold State.formatScanned
    split
    · exact h.runMaint _ _
    · exact h.writeAnchor _ _ _

theorem Effect.formatAnchorRead (h : Effect .maint s u) (c : Copy) (greatest : Word) :
    Effect .maint s (u.formatAnchorRead c greatest) := by
  cases c
  case a => exact h.runMaint _ _
  case b => exact h.formatHeaders _ _

theorem Effect.anchorConfirmed (h : Effect .maint s u) (goal : AnchorGoal) (c : Copy) (epoch : Word) :
    Effect .maint s (u.anchorConfirmed goal c epoch) := by
  have hset : Effect .maint s (u.setAnchor c (.valid epoch)) := h.quiet (by simp [State.face])
  cases goal
  case advance | wipeSecond => exact hset.advanceSucceeded epoch
  case wipeFirst => exact Effect.writeAnchor hset.same _ _ _
  case formatFirst => exact hset.writeAnchor _ _ _
  case formatSecond => exact Effect.endOperation hset.same _ _ _ _

theorem Effect.anchorFailed (h : Effect .maint s u) (goal : AnchorGoal) (c : Copy) (notWritten : Bool)
    (kind : FaultKind) : Effect .maint s (u.anchorFailed goal c notWritten kind) := by
  cases goal
  case advance => exact (h.file _).failOperation _ _
  case wipeFirst | wipeSecond => exact (h.file _).journalLost kind
  case formatFirst | formatSecond => exact (h.file _).formatFailed kind

theorem Effect.anchorReadBack (h : Effect .maint s u) (goal : AnchorGoal) (c : Copy) (epoch : Word) (x : Row) :
    Effect .maint s (u.anchorReadBack goal c epoch x) := by
  unfold State.anchorReadBack
  split
  · exact h.anchorConfirmed _ _ _
  · exact h.anchorFailed _ _ _ _

theorem Effect.wipeWritten (h : Effect .maint s u) (k : Nat) (forFormat : Bool) :
    Effect .maint s (u.wipeWritten k forFormat) := by
  unfold State.wipeWritten
  split
  · exact h.runMaint _ _
  · exact h.writeAnchor _ _ _

theorem Effect.wipeFailed (h : Effect .maint s u) (k : Nat) (forFormat : Bool) (kind : FaultKind) :
    Effect .maint s (u.wipeFailed k forFormat kind) := by
  cases forFormat
  case false => exact (h.file _).journalLost kind
  case true => exact (h.file _).formatFailed kind

/-! ## The start -/

theorem Effect.endStartQuietly {r : Requester} (h : Effect r s u) (journal : JournalState) :
    Effect r s (u.endStartQuietly journal) :=
  Effect.endStartRunning h.same

theorem Effect.startScan (h : Effect .maint s u) (epoch : Word) : Effect .maint s (u.startScan epoch) :=
  Effect.runMaint h.same _ _

theorem Effect.selectAnchor (h : Effect .maint s u) : Effect .maint s u.selectAnchor := by
  unfold State.selectAnchor
  split
  · exact h.startScan _
  · exact Effect.startScan (h.file _) _
  · exact Effect.startScan (h.file _) _
  · exact Effect.startScan (h.file _) _
  · exact Effect.startScan (h.file _) _
  all_goals exact h.endStartQuietly _

theorem Effect.anchorClassified (h : Effect .maint s u) (c : Copy) (a : AnchorRecord) :
    Effect .maint s (u.anchorClassified c a) := by
  cases c
  case a => exact Effect.runMaint h.same _ _
  case b => exact Effect.selectAnchor h.same

theorem Effect.scanStopped (h : Effect .maint s u) (headers : List SlotHeader) (accepted : List SlotEntry) :
    Effect .maint s (u.scanStopped headers accepted) := by
  unfold State.scanStopped
  dsimp only
  split
  · exact Effect.endStartQuietly h.same _
  · exact Effect.enterRollingBack h.same

theorem Effect.headerScanned (h : Effect .maint s u) (k : Nat) (headers : List SlotHeader) (accepted : List SlotEntry)
    (x : Row) : Effect .maint s (u.headerScanned k headers accepted x) := by
  unfold State.headerScanned
  split
  · dsimp only
    split
    · exact h.runMaint _ _
    · exact h.scanStopped _ _
  · exact h.scanStopped _ _

theorem Effect.scanFailed (h : Effect .maint s u) (k : Nat) (headers : List SlotHeader) (accepted : List SlotEntry)
    (kind : FaultKind) : Effect .maint s (u.scanFailed k headers accepted kind) :=
  Effect.failOperation (Effect.file h.same _) _ _

theorem Effect.endStartUnconfigured {r : Requester} (h : Effect r s u) : Effect r s u.endStartUnconfigured := by
  unfold State.endStartUnconfigured
  dsimp only
  split
  · exact Effect.settleLatch h.same
  · split
    · exact Effect.fileTogether (h.dropHeld.same) _ _
    · exact Effect.file (h.dropHeld.same) _

/-- What an installation makes of the held request (R77, R114). -/
theorem Effect.install (h : Effect .maint s u) (c : ConfigRecord) (from_ : Copy) (degraded : Option Copy) :
    Effect .maint s (u.install c from_ degraded) := by
  have hset : Effect .maint s { u with
      active := some c, staging := c, designation := some from_, alertMask := c.alertMask,
      maint := none, configDegraded := degraded.isSome } := h.same
  unfold State.install
  extract_lets v w
  have hw : Effect .maint s w := by
    subst w
    split
    · exact hset.takeInHeld
    · dsimp only
      split
      · exact hset.file _
      · split
        · exact (hset.file _).takeInHeld
        · exact (hset.dropHeld.fileTogether _ _).answerRefused _
  split
  · exact hw.endStartRunning
  · exact Effect.runMaint hw.same _ _

theorem Effect.copyClassified (h : Effect .maint s u) (c : Copy) (record first : Option ConfigRecord) :
    Effect .maint s (u.copyClassified c record first) := by
  have hset : Effect .maint s (u.setCopy c (copyRecordOf record)) := h.quiet (by simp [State.face])
  cases c
  case a => exact hset.runMaint _ _
  case b =>
    unfold State.copyClassified State.selectConfig
    dsimp only
    split
    · split
      · exact hset.install _ _ _
      · exact hset.install _ _ _
    · exact hset.install _ _ _
    · exact hset.install _ _ _
    · exact hset.endStartUnconfigured

theorem Effect.loadRowRead (h : Effect .maint s u) (c : Copy) (i : Nat) (rows : List RowData)
    (first : Option ConfigRecord) (x : Row) : Effect .maint s (u.loadRowRead c i rows first x) := by
  unfold State.loadRowRead
  split
  · split
    · exact h.runMaint _ _
    · exact h.copyClassified _ _ _
  · exact h.copyClassified _ _ _

/-! ## APPLY -/

theorem Effect.startCopyWrite (h : Effect .maint s u) (c : Copy) : Effect .maint s (u.startCopyWrite c) :=
  Effect.runMaint (h.quiet (by simp [State.face])) _ _

theorem Effect.applyFailed (h : Effect .maint s u) (row : Nat) (kind : FaultKind) :
    Effect .maint s (u.applyFailed row kind) :=
  (h.file _).failOperation _ _

theorem Effect.copyReadBack (h : Effect .maint s u) (c : Copy) (rows : List Row) :
    Effect .maint s (u.copyReadBack c rows) := by
  have hset : Effect .maint s (u.setCopy c (.valid u.applyGeneration)) := h.quiet (by simp [State.face])
  unfold State.copyReadBack
  split
  · dsimp only
    split
    · exact hset.startCopyWrite _
    · exact hset.same
  · exact h.applyFailed _ _

theorem Effect.applyJournalStep (h : Effect .maint s u) (unchanged : Bool) :
    Effect .maint s (u.applyJournalStep unchanged) := by
  unfold State.applyJournalStep
  split
  · exact Effect.endOperation h.same _ _ _ _
  · split
    · exact h.endOperation _ _ _ _
    · exact Effect.enterFormatting h.same

theorem Effect.activate (h : Effect .maint s u) : Effect .maint s u.activate :=
  Effect.applyJournalStep h.same _

/-! ## Execution -/

theorem Effect.executeSave (h : Effect .maint s u) : Effect .maint s u.executeSave := by
  unfold State.executeSave
  split
  · exact Effect.endOperation h.same _ _ _ _
  · exact h.refuseOperation _

theorem Effect.executeRelease (h : Effect .maint s u) : Effect .maint s u.executeRelease := by
  unfold State.executeRelease
  split
  · exact h.refuseOperation _
  · exact Effect.endOperation h.same _ _ _ _

theorem Effect.executeUndo (h : Effect .maint s u) : Effect .maint s u.executeUndo := by
  unfold State.executeUndo
  split
  · exact h.refuseOperation _
  · exact Effect.restoreNext h.same

theorem Effect.executeRollback (h : Effect .maint s u) : Effect .maint s u.executeRollback := by
  unfold State.executeRollback
  split
  · exact Effect.endOperation h.same _ _ _ _
  · exact h.enterRollingBack

theorem Effect.executeCommit (h : Effect .maint s u) : Effect .maint s u.executeCommit := by
  unfold State.executeCommit
  split
  · exact Effect.endOperation h.same _ _ _ _
  · exact Effect.startAdvance h.same

theorem Effect.executeResume (h : Effect .maint s u) : Effect .maint s u.executeResume := by
  unfold State.executeResume
  split
  · exact h.enterRollingBack
  · exact Effect.startAdvance h.same
  all_goals exact h

theorem Effect.executeFormat (h : Effect .maint s u) : Effect .maint s u.executeFormat := by
  unfold State.executeFormat
  split
  · exact h.refuseOperation _
  · exact h.enterFormatting

theorem Effect.executeApply (h : Effect .maint s u) : Effect .maint s u.executeApply := by
  unfold State.executeApply
  split
  · exact h.refuseOperation _
  · split
    · split
      · exact h.runMaint _ _
      · exact h.startCopyWrite _
    · exact h.startCopyWrite _

/-- A result on MAINT is such a chain, whatever its task (R148). -/
theorem Effect.deliverMaint (h : Effect .maint s u) (d : Delivery) : Effect .maint s (u.deliverMaint d) := by
  unfold State.deliverMaint
  split
  · exact h
  · exact h.loadRowRead _ _ _ _ _
  · exact (h.file _).copyClassified _ _ _
  · exact h.anchorClassified _ _
  · exact (h.file _).anchorClassified _ _
  · exact h.headerScanned _ _ _ _
  · exact h.scanFailed _ _ _ _
  · exact h.imageRead _ _
  · exact h.restoreStopped _ _
  · exact h.targetWritten
  · exact h.restoreStopped _ _
  · exact h.wipeWritten _ _
  · exact h.wipeFailed _ _ _
  · exact h.runMaint _ _
  · exact h.anchorFailed _ _ _ _
  · exact h.anchorReadBack _ _ _ _
  · exact h.anchorFailed _ _ _ _
  · exact h.formatAnchorRead _ _
  · exact (h.file _).formatAnchorRead _ _
  · exact h.formatHeaders _ _
  · exact (h.file _).formatFailed _
  · exact h.startCopyWrite _
  · exact h.applyFailed _ _
  · exact h.runMaint _ _
  · exact h.applyFailed _ _
  · split
    · exact h.runMaint _ _
    · exact h.runMaint _ _
  · exact h.applyFailed _ _
  · exact h.runMaint _ _
  · exact h.applyFailed _ _
  · split
    · exact h.runMaint _ _
    · exact h.copyReadBack _ _
  · exact h.applyFailed _ _

end

/-! ## The Row Engine -/

section
variable {s u : State}

theorem Effect.endWriteJob {r : Requester} (h : Effect r s u) (okay : Bool) : Effect r s (u.endWriteJob okay) :=
  Effect.decideIfDue ((h.retireHead okay).same)

theorem Effect.refuseWriteJob {r : Requester} (h : Effect r s u) (j : Job) (kind : FaultKind) (row : Nat)
    (slot : Option Nat) (partialDone : Bool) : Effect r s (u.refuseWriteJob j kind row slot partialDone) :=
  (h.file _).endWriteJob false

theorem Effect.endReadJob {r : Requester} (h : Effect r s u) (j : Job) : Effect r s (u.endReadJob j) :=
  (h.read none (by simp)).same

theorem Effect.issueRead (h : Effect .front s u) (j : Job) (i : Nat) : Effect .front s (u.issueRead j i) :=
  Effect.request h.same _

theorem Effect.issueWrite (h : Effect .front s u) (j : Job) (i : Nat) : Effect .front s (u.issueWrite j i) :=
  Effect.request h.same _

theorem Effect.startWriting (h : Effect .front s u) (j : Job) : Effect .front s (u.startWriting j) := by
  unfold State.startWriting
  split
  · exact h.issueWrite _ _
  · exact Effect.endWriteJob h.same _

theorem Effect.issueAppend (h : Effect .front s u) (j : Job) (i slot : Nat) (sequence : Word) (step : AppendStep) :
    Effect .front s (u.issueAppend j i slot sequence step) := by
  cases step
  case headerClear | imageWrite | headerWrite => exact Effect.request h.same _

theorem Effect.startAppend (h : Effect .front s u) (j : Job) (i : Nat) : Effect .front s (u.startAppend j i) :=
  Effect.issueAppend (h.quiet (by simp [State.face])) _ _ _ _ _

theorem Effect.markHead {r : Requester} (h : Effect r s u) (f : Entry → Entry) (hf : ∀ e, (f e).tag = e.tag) :
    Effect r s (u.markHead f) := by
  unfold State.markHead
  split
  · exact h
  · next hq => exact h.thin _ (by simp [hq, hf])

theorem Effect.takeHead {r : Requester} (h : Effect r s u) : Effect r s u.takeHead := h.markHead _ fun _ => rfl

theorem Effect.park {r : Requester} (h : Effect r s u) (j : Job) : Effect r s (u.park j) := by
  have hmark : Effect r s (u.markHead fun e => { e with state := .spaceWait }) := h.markHead _ fun _ => rfl
  exact (Effect.decideIfDue hmark.same).spaceWaitEntered

theorem Effect.requestSpace (h : Effect .front s u) (j : Job) : Effect .front s (u.requestSpace j) := by
  unfold State.requestSpace
  split
  · exact h.startWriting _
  · split
    · exact h.startAppend _ _
    · split
      · exact h.refuseWriteJob _ _ _ _ _
      · exact h.park _

theorem Effect.afterReads (h : Effect .front s u) (j : Job) : Effect .front s (u.afterReads j) := by
  have hjob : Effect .front s { u with job := some j } := h.same
  unfold State.afterReads
  dsimp only
  split
  · exact hjob.refuseWriteJob _ _ _ _ _
  · exact hjob.requestSpace _

theorem Effect.startWriteJob (h : Effect .front s u) (j : Job) : Effect .front s (u.startWriteJob j) := by
  unfold State.startWriteJob
  split
  · exact h.issueRead _ _
  · exact h.afterReads _

theorem Effect.readJobNext (h : Effect .front s u) (j : Job) (i : Nat) : Effect .front s (u.readJobNext j i) := by
  unfold State.readJobNext
  split
  · exact h.issueRead _ _
  · exact h.endReadJob _

theorem Effect.readJobRowDone (h : Effect .front s u) (j : Job) (i : Nat) (d : Delivery) :
    Effect .front s (u.readJobRowDone j i d) := by
  unfold State.readJobRowDone
  split
  · split
    · exact h.readJobNext _ _
    · exact (h.file _).readJobNext _ _
  · exact (h.file _).readJobNext _ _

theorem Effect.writeJobNext (h : Effect .front s u) (j : Job) (i : Nat) : Effect .front s (u.writeJobNext j i) := by
  unfold State.writeJobNext
  split
  · exact h.issueRead _ _
  · exact h.afterReads _

theorem Effect.writeJobRowDone (h : Effect .front s u) (j : Job) (i : Nat) (d : Delivery) :
    Effect .front s (u.writeJobRowDone j i d) := by
  unfold State.writeJobRowDone
  split
  · split
    · exact h.writeJobNext _ _
    · split
      · exact h.refuseWriteJob _ _ _ _ _
      · exact h.writeJobNext _ _
  · exact h.refuseWriteJob _ _ _ _ _

theorem Effect.appendDone (h : Effect .front s u) (j : Job) (i slot : Nat) (sequence : Word) (step : AppendStep)
    (d : Delivery) : Effect .front s (u.appendDone j i slot sequence step d) := by
  unfold State.appendDone
  split
  · exact h.refuseWriteJob _ _ _ _ _
  · split
    · exact h.issueAppend _ _ _ _ _
    · exact h.issueAppend _ _ _ _ _
    · dsimp only
      split
      · exact Effect.startAppend h.same _ _
      · exact Effect.startWriting h.same _

theorem Effect.targetDone (h : Effect .front s u) (j : Job) (i : Nat) (d : Delivery) :
    Effect .front s (u.targetDone j i d) := by
  unfold State.targetDone
  split
  · exact h.refuseWriteJob _ _ _ _ _
  · split
    · exact h.issueWrite _ _
    · exact h.endWriteJob _

/-- A result on FRONT is such a chain, whatever the job's phase (R148). -/
theorem Effect.deliverFront (h : Effect .front s u) (d : Delivery) : Effect .front s (u.deliverFront d) := by
  unfold State.deliverFront
  split
  · exact h
  · split
    · split
      · exact h.readJobRowDone _ _ _
      · exact h.writeJobRowDone _ _ _
    · exact h.appendDone _ _ _ _ _ _
    · exact h.targetDone _ _ _
    · exact h

theorem Effect.deliver {r : Requester} (h : Effect r s u) (d : Delivery) : Effect r s (u.deliver r d) := by
  cases r
  case front => exact h.deliverFront d
  case maint => exact h.deliverMaint d

theorem Effect.examineRead (h : Effect .front s u) (p : PendingRead) (hp : u.pendingRead = some p) :
    Effect .front s (u.examineRead p) := by
  unfold State.examineRead
  dsimp only
  split
  · exact h.same
  · exact (((h.file _).answerRefused _).read none (by simp)).same
  · exact Effect.issueRead (h.read _ (by simp [hp])) _ _

theorem Effect.examineHead (h : Effect .front s u) (e : Entry) : Effect .front s (u.examineHead e) := by
  unfold State.examineHead
  split
  · exact h.same
  · exact (h.takeHead.file _).endWriteJob _
  · exact h.takeHead.startWriteJob _

theorem Effect.examineOfferedHead (h : Effect .front s u) : Effect .front s u.examineOfferedHead := by
  unfold State.examineOfferedHead
  split
  · exact h
  · exact h.examineHead _

/-- The read that is offered is the pending one (R120, R131). -/
theorem State.offeredRead_eq_some {p : PendingRead} (h : u.offeredRead = some p) :
    u.pendingRead = some p ∧ u.readEligible p = true ∧ p.taken = false ∧ u.readHeld = false := by
  unfold State.offeredRead at h
  split at h
  · cases h
  · next q hq =>
    split at h
    · next hc =>
      obtain rfl := Option.some.inj h
      simp only [Bool.and_eq_true, Bool.not_eq_true'] at hc
      obtain ⟨⟨heligible, htaken⟩, hheld⟩ := hc
      exact ⟨hq, heligible, htaken, hheld⟩
    · cases h

theorem Effect.examine (h : Effect .front s u) : Effect .front s u.examine := by
  unfold State.examine
  split
  · exact h.examineOfferedHead
  · next p hp =>
    have hread := h.examineRead p (State.offeredRead_eq_some hp).1
    split
    · exact hread.examineOfferedHead
    · exact hread

end

/-! ## The control link and CKPT -/

section
variable {r : Requester} {s u : State}

theorem Effect.respond (h : Effect r s u) (clocked : Nat) (status : Status) (payload : List Byte) :
    Effect r s (u.respond clocked status payload) :=
  h.same

theorem Effect.freezeRegion (h : Effect r s u) (region : Byte) : Effect r s (u.freezeRegion region) := by
  unfold State.freezeRegion
  split
  · next hr =>
    split
    · exact h.respond _ _ _
    · exact h.respond _ _ _
    all_goals
      split
      · exact h.respond _ _ _
      · unfold State.acceptFreeze
        split
        · exact h.same
        · exact Effect.respond (h.flag ⟨region.toNat, hr⟩) _ _ _
  · exact h.respond _ _ _

theorem Effect.longCommand (h : Effect r s u) (clocked : Nat) (kind : OpKind) (skip : Bool) :
    Effect r s (u.longCommand clocked kind skip) := by
  unfold State.longCommand
  split
  · exact h.respond _ _ _
  · split
    · exact h.respond _ _ _
    · split
      · exact h.respond _ _ _
      · exact (h.takeOperation _ _ _).respond _ _ _

theorem Effect.resumeCommand (h : Effect r s u) (skip : Byte) : Effect r s (u.resumeCommand skip) := by
  unfold State.resumeCommand
  split
  · exact h.longCommand _ _ _
  · split
    · exact h.longCommand _ _ _
    · exact h.respond _ _ _

theorem Effect.checkpointRequest (h : Effect r s u) : Effect r s u.checkpointRequest := by
  unfold State.checkpointRequest
  split
  · exact h.same
  · exact h.file _
  all_goals
    split
    · exact h.same
    · split
      · exact h.takeOperation _ _ _
      · exact h.file _

end

end Sys2Proof.Machine

/-! SUPPORT. What a command can do, said once: every command's meaning is a chain of elementary effects, but for the
request that arrives, the answers of the memory device, FAULT_POP and a reset. From it the laws of the fault log, the
post queue, the bus, the freeze flags and the port's attempts, each link by link. -/
namespace Sys2Proof.Machine

set_option Elab.async false

/-! ## What a command can do -/

/-- The command ends the row operation in flight or the attempt being aborted (R149, R150). -/
def EndsFlight (c : Instr) (s : State) (f : Flight) : Prop :=
  (∃ delivered, c = .memoryAttemptDone delivered ∧ s.port = .inFlight f) ∨ ∃ left, EndsAttempt c s left f

/-- The rows of the memory after the device's answer to the row operation in flight (R93, R149). -/
def AnsweredMemory (c : Instr) (s : State) (f : Flight) (m : Memory) : Prop :=
  (∃ delivered, c = .memoryAttemptDone delivered ∧ m = (completeAttempt s.mem f.op delivered).1)
    ∨ ∃ left, m = (s.leaveResidue f.op left).mem

/-- What a command makes of a state. -/
inductive StepEffect (c : Instr) (s : State) : State → Prop
  /-- A chain of elementary effects. -/
  | chain {t : State} (r : Requester) (h : Effect r s t) : StepEffect c s t
  /-- A request arrives (R110). -/
  | presented (q : Request) : StepEffect c s (s.present q)
  /-- The row operation ends, the port is free, and its result starts a chain (R148, R156). -/
  | finished {t : State} (f : Flight) (m : Memory) (hc : EndsFlight c s f) (hm : AnsweredMemory c s f m)
      (h : Effect f.requester ({ s with mem := m, port := .idle } : State).arbitrate t) : StepEffect c s t
  /-- The attempt is retried (R151). -/
  | retried (f : Flight) (m : Memory) (kind : MemFault) (hc : EndsFlight c s f) (hm : AnsweredMemory c s f m)
      (ha : f.attempt ≤ f.retries.toNat) : StepEffect c s
        { s with
          mem := m, port := .inFlight { f with attempt := f.attempt + 1, last := some kind }
          retryCounter := countUp s.retryCounter }
  /-- The attempt's timeout expires (R150). -/
  | expired (f : Flight) (hp : s.port = .inFlight f) : StepEffect c s { s with port := .aborting f }
  /-- The oldest fault record is read (R194). -/
  | popped (hc : c = .faultPop) : StepEffect c s s.popFault
  /-- The part is reset (R74). -/
  | reset (left : Residue) (hc : c = .rstAssert left) : StepEffect c s (s.resetWith left)

theorem StepEffect.quiet {c : Instr} {s t : State} (hface : t.face = s.face := by rfl) : StepEffect c s t :=
  .chain .front (Effect.refl.quiet hface)

/-- A command on the link does in reset nothing, and out of reset what its meaning does (R74, R176). -/
theorem StepEffect.onLink {c : Instr} {s : State} {f : State → State} (h : StepEffect c s (f s)) :
    StepEffect c s (s.onLink f) := by
  unfold State.onLink
  split
  · exact .quiet
  · exact h

theorem StepEffect.execMemoryAttemptDone {delivered : Option Row} {s t : State}
    (he : execMemoryAttemptDone delivered s = .next t) : StepEffect (.memoryAttemptDone delivered) s t := by
  unfold Machine.execMemoryAttemptDone at he
  split at he
  · exact Host.Outcome.next.inj he ▸ .quiet
  · exact Host.Outcome.next.inj he ▸ .quiet
  · next f hp =>
    obtain rfl := Host.Outcome.next.inj he
    exact .finished f _ (.inl ⟨delivered, rfl, hp⟩) (.inl ⟨delivered, rfl, rfl⟩) (Effect.refl.deliver _)

/-- An attempt that ends without success is retried, or fails its operation for good (R151, R152). -/
theorem EndsAttempt.stepEffect {c : Instr} {s t : State} {left : Residue} {f : Flight} (h : EndsAttempt c s left f)
    (he : exec c s = .next t) : StepEffect c s t := by
  obtain ⟨kind, hk⟩ := h.exec_eq
  obtain rfl : _ = t := Host.Outcome.next.inj (hk.symm.trans he)
  have hmem : s.leaveResidue f.op left = { s with mem := (s.leaveResidue f.op left).mem } := by
    unfold State.leaveResidue
    split
    · rfl
    · rfl
  rw [hmem]
  unfold State.attemptFailed
  split
  · next ha => exact .retried f _ kind (.inr ⟨left, h⟩) (.inr ⟨left, rfl⟩) ha
  · exact .finished f _ (.inr ⟨left, h⟩) (.inr ⟨left, rfl⟩) (Effect.refl.deliver _)

theorem StepEffect.execDrainEnd {s t : State} (he : execDrainEnd s = .next t) : StepEffect .drainEnd s t := by
  unfold Machine.execDrainEnd at he
  split at he
  · split at he
    · exact Host.Outcome.next.inj he ▸ .quiet
    · next o _ =>
      have h : Effect .maint s { s with longOp := some { o with phase := .executing } } := Effect.refl.same
      dsimp only at he
      refine .chain .maint ?_
      split at he
      · exact Host.Outcome.next.inj he ▸ h.executeSave
      · exact Host.Outcome.next.inj he ▸ h.executeRelease
      · exact Host.Outcome.next.inj he ▸ h.executeUndo
      · exact Host.Outcome.next.inj he ▸ h.executeCommit
      · exact Host.Outcome.next.inj he ▸ h.executeRollback
      · exact Host.Outcome.next.inj he ▸ h.executeResume
      · exact Host.Outcome.next.inj he ▸ h.executeFormat
      · exact Host.Outcome.next.inj he ▸ h.executeApply
  · exact Host.Outcome.next.inj he ▸ .quiet

/-- A meaning that acts only under a condition. -/
theorem StepEffect.ite {c : Instr} {s t u : State} {b : Bool} (ht : StepEffect c s t) (hu : StepEffect c s u) :
    StepEffect c s (if b then t else u) := by
  split
  · exact ht
  · exact hu

/-- What a command can do. -/
theorem exec_stepEffect {c : Instr} {s t : State} (he : exec c s = .next t) : StepEffect c s t := by
  have hend : ∀ left, (c = .memoryAttemptFail left ∨ c = .abortAcknowledge left) → StepEffect c s t := by
    intro left hc
    by_cases h : ∃ f, EndsAttempt c s left f
    · exact h.choose_spec.stepEffect he
    · rw [exec_eq_self_of_not_endsAttempt hc (not_exists.mp h)] at he
      exact Host.Outcome.next.inj he ▸ .quiet
  cases c
  case memoryAttemptFail left => exact hend left (.inl rfl)
  case abortAcknowledge left => exact hend left (.inr rfl)
  case memoryAttemptDone delivered => exact .execMemoryAttemptDone he
  case drainEnd => exact .execDrainEnd he
  case attemptTimerExpiry =>
    simp only [exec, execAttemptTimerExpiry] at he
    split at he
    · exact Host.Outcome.next.inj he ▸ .quiet
    · exact Host.Outcome.next.inj he ▸ .quiet
    · next f hp => exact Host.Outcome.next.inj he ▸ .expired f hp
  all_goals obtain rfl := Host.Outcome.next.inj he
  -- The front port.
  case frontReadRequest address beats => exact .presented (.read address beats)
  case frontWriteRequest address beats => exact .presented (.write address beats)
  case heldWriteAccept => exact .chain .front Effect.refl.accept
  case holdTimerExpiry => exact .chain .front Effect.refl.holdExpires
  -- The Row Engine and the part's own steps.
  case jobTake => exact .ite (.chain .front Effect.refl.examine) .quiet
  case applyActivation => exact .ite (.chain .maint Effect.refl.activate) .quiet
  case freezeDeferredDecision => exact .chain .front Effect.refl.decideIfDue
  case quiescedEntry => exact .ite .quiet .quiet
  -- The lines.
  case ckptEdge => exact .ite .quiet (.chain .front (Effect.checkpointRequest Effect.refl.same))
  case pfwAssert => exact .ite (.chain .front (Effect.enterQuiescing Effect.refl.same)) .quiet
  case pfwDeassert => exact .ite (.chain .front (Effect.takeInHeld Effect.refl.same)) .quiet
  case rstAssert left => exact .reset left rfl
  case start => exact .ite (.chain .maint (Effect.runMaint Effect.refl.same _ _)) .quiet
  -- The control link.
  case faultPop => exact .onLink (.popped rfl)
  case freeze region => exact .onLink (.chain .front (Effect.refl.freezeRegion region))
  case resume skip => exact .onLink (.chain .front (Effect.refl.resumeCommand skip))
  case save | release | undo | commit | rollback | format | apply =>
    exact .onLink (.chain .front (Effect.refl.longCommand _ _ _))
  case responseRead | frameError | unknownCommand | status | ident | completion | cfgRead | cfgStage | cfgCopy |
      alertMask =>
    exact .onLink (.quiet (by simp [State.face, apply_ite State.log, apply_ite State.dropped, apply_ite State.queue,
      apply_ite State.nextAcceptance, apply_ite State.held, apply_ite State.pendingRead, apply_ite State.freeze,
      apply_ite State.port, apply_ite State.waitFront, apply_ite State.mem, apply_ite State.pending]))

end Sys2Proof.Machine

/-! SUPPORT. The laws of the fault log (R192), the post queue and the bus (R110, R115, R117), the freeze flags (R104) and
the port's attempts (R151): each is kept by every link of the chain that a command's meaning is. -/
namespace Sys2Proof.Machine

set_option Elab.async false

/-! ## The shared operations of the front port -/

/-- The held write is accepted where there is room, or nothing happens (R115). -/
theorem State.acceptHeldWrite_cases (s : State) :
    s.acceptHeldWrite = s ∨ ∃ address beats, s.held = some (.write address beats) ∧ s.queueHasRoom = true
      ∧ s.acceptHeldWrite = ({ s with held := none } : State).acceptWrite address beats := by
  unfold State.acceptHeldWrite
  split
  · next address beats hheld =>
    split
    · next hc =>
      obtain ⟨_, hroom⟩ := Bool.and_eq_true_iff.mp hc
      exact .inr ⟨address, beats, hheld, hroom, rfl⟩
    · exact .inl rfl
  · exact .inl rfl
  · exact .inl rfl

/-- A request that is taken in becomes the pending read, joins the queue where there is room, becomes the held request
where there is none, or is refused (R112, R115, R120). -/
theorem State.takeIn_cases (s : State) (q : Request) :
    (∃ p, s.takeIn q = { s with pendingRead := some p, readHeld := false })
      ∨ (∃ address beats, s.queueHasRoom = true ∧ s.takeIn q = s.acceptWrite address beats)
      ∨ s.takeIn q = { s with held := some q } ∨ ∃ f, s.takeIn q = (s.file f).answerRefused q := by
  unfold State.takeIn
  split
  · split
    · exact .inl ⟨_, rfl⟩
    · split
      · next hroom => exact .inr (.inl ⟨_, _, hroom, rfl⟩)
      · exact .inr (.inr (.inl rfl))
  · exact .inr (.inr (.inr ⟨_, rfl⟩))

/-- A request that arrives while the bus is free is taken in, refused, or held (R82, R110, R114). -/
theorem State.present_cases (s : State) (q : Request) :
    s.present q = s
      ∨ s.busFree = true ∧
        (s.present q = ({ s with frontResponse := none } : State).takeIn q
          ∨ s.present q = (s.file (notReadyFault q)).answerRefused q
          ∨ s.present q = { s with held := some q, frontResponse := none }) := by
  unfold State.present
  split
  · exact .inl rfl
  · next hc =>
    simp only [Bool.or_eq_true, Bool.not_eq_true', not_or, Bool.not_eq_false] at hc
    refine .inr ⟨hc.2, ?_⟩
    split
    · exact .inl rfl
    · split
      · exact .inr (.inl rfl)
      · exact .inr (.inr rfl)

/-- The held request is taken in as acceptance opens, if there is one (R114). -/
theorem State.takeInHeld_cases (s : State) :
    s.takeInHeld = s ∨ ∃ q, s.held = some q ∧ s.takeInHeld = ({ s with held := none } : State).takeIn q := by
  unfold State.takeInHeld
  split
  · exact .inl rfl
  · next q hq => exact .inr ⟨q, hq, rfl⟩

/-- A free bus carries no request (R110). -/
theorem State.busFree_iff (s : State) :
    s.busFree = true ↔ s.held = none ∧ s.pendingRead = none ∧ ∀ e ∈ s.queue, e.mark = .posted := by
  simp [State.busFree, and_assoc]

/-- An accepted write finds fewer than 8 entries, and in COMPLETED mode none (R115). -/
theorem State.queue_of_hasRoom {s : State} (h : s.queueHasRoom = true) :
    s.queue.length < 8 ∧ (s.ackMode = .completed → s.queue = []) := by
  unfold State.queueHasRoom at h
  split at h
  · next hmode => exact ⟨by simpa using h, fun hc => by simp [hmode] at hc⟩
  · have hq : s.queue = [] := by simpa using h
    exact ⟨by simp [hq], fun _ => hq⟩

/-! ## The fault log -/

/-- The records of the log stay in front of what is filed, and the law of the log is kept (R192). -/
def LogGrows (s t : State) : Prop := s.log <+: t.log ∧ (s.logLaw → t.logLaw)

theorem LogGrows.of_eq {s t : State} (hlog : t.log = s.log) (hdropped : t.dropped = s.dropped) : LogGrows s t :=
  ⟨hlog ▸ List.prefix_refl _, fun h => by rwa [State.logLaw, hlog, hdropped]⟩

theorem LogGrows.trans {s u t : State} (h : LogGrows s u) (h' : LogGrows u t) : LogGrows s t :=
  ⟨h.1.trans h'.1, h'.2 ∘ h.2⟩

theorem LogGrows.file (s : State) (f : FaultRecord) : LogGrows s (s.file f) := by
  refine ⟨?_, s.file_logLaw f⟩
  rw [(s.file_sets f).1]
  split
  · exact List.prefix_append _ _
  · exact List.prefix_refl _

theorem LogGrows.takeIn (s : State) (q : Request) : LogGrows s (s.takeIn q) := by
  obtain ⟨p, h⟩ | ⟨address, beats, _, h⟩ | h | ⟨f, h⟩ := s.takeIn_cases q
  · exact .of_eq (by rw [h]) (by rw [h])
  · exact .of_eq (by simp [h]) (by simp [h])
  · exact .of_eq (by rw [h]) (by rw [h])
  · rw [h]
    exact (LogGrows.file s f).trans (.of_eq (by simp) (by simp))

/-- No link of the chain takes a record out of the log. -/
theorem Effect.logGrows {r : Requester} {s t : State} (h : Effect r s t) : LogGrows s t := by
  induction h with
  | refl => exact .of_eq rfl rfl
  | quiet _ hface ih => exact ih.trans (.of_eq (State.face_log hface) (State.face_dropped hface))
  | file _ f ih => exact ih.trans (.file _ f)
  | takeInHeld _ ih =>
    next u _ =>
    obtain hself | ⟨q, _, hq⟩ := u.takeInHeld_cases
    · rwa [hself]
    · rw [hq]
      exact ih.trans (LogGrows.trans (.of_eq rfl rfl) (.takeIn { u with held := none } q))
  | accept _ ih | request _ _ ih => exact ih.trans (.of_eq (by simp) (by simp))
  | thin _ _ _ ih | dropHeld _ ih | read _ _ _ ih | flag _ _ ih => exact ih.trans (.of_eq rfl rfl)

theorem LogGrows.present (s : State) (q : Request) : LogGrows s (s.present q) := by
  obtain h | ⟨_, h | h | h⟩ := s.present_cases q
  · exact .of_eq (by rw [h]) (by rw [h])
  · rw [h]
    exact LogGrows.trans (.of_eq rfl rfl) (.takeIn { s with frontResponse := none } q)
  · rw [h]
    exact (LogGrows.file s (notReadyFault q)).trans (.of_eq (by simp) (by simp))
  · exact .of_eq (by rw [h]) (by rw [h])

/-- Only FAULT_POP and a reset take records out of the log (R192). -/
theorem exec_logGrows {c : Instr} {s t : State} (he : exec c s = .next t) (hpop : c ≠ .faultPop)
    (hreset : ∀ left, c ≠ .rstAssert left) : LogGrows s t := by
  cases exec_stepEffect he with
  | chain r h => exact h.logGrows
  | presented q => exact .present s q
  | finished f m _ _ h => exact LogGrows.trans (.of_eq (by simp) (by simp)) h.logGrows
  | retried | expired => exact .of_eq rfl rfl
  | popped hc => exact absurd hc hpop
  | reset left hc => exact absurd hc (hreset left)

/-- FAULT_POP resets the dropped counter with the last record (R194). -/
theorem State.popFault_logLaw {s : State} (h : s.logLaw) : s.popFault.logLaw := by
  unfold State.popFault
  split
  · exact h
  · next f rest hlog =>
    obtain ⟨hlen, _⟩ := h
    simp only [hlog, List.length_cons] at hlen
    exact ⟨by simp only [State.respondOk, State.respond]; omega, by
      cases rest with
      | nil => simp [State.respondOk, State.respond]
      | cons g rest => simp [State.respondOk, State.respond]⟩

theorem exec_logLaw {c : Instr} {s t : State} (he : exec c s = .next t) (h : s.logLaw) : t.logLaw := by
  by_cases hpop : c = .faultPop
  · subst hpop
    obtain rfl := Host.Outcome.next.inj he
    unfold State.onLink
    split
    · exact h
    · exact State.popFault_logLaw h
  · by_cases hreset : ∃ left, c = .rstAssert left
    · obtain ⟨left, rfl⟩ := hreset
      obtain rfl := Host.Outcome.next.inj he
      exact ⟨Nat.zero_le _, fun hd => absurd rfl hd⟩
    · exact (exec_logGrows he hpop (not_exists.mp hreset)).2 h

/-! ## The order of acceptance -/

/-- The acceptance numbers of the queue, oldest first (R117). -/
def State.numbers (s : State) : List Word := s.queue.map Entry.number

/-- Entries leave the queue, and nothing joins it. -/
def NumbersKept (s t : State) : Prop :=
  t.numbers.Sublist s.numbers ∧ t.nextAcceptance = s.nextAcceptance ∧ (s.held = none → t.held = none)

/-- The held write joins the queue with the next number, and with it nothing is held (R115). -/
def NumberAdded (s t : State) : Prop :=
  s.held ≠ none ∧ t.held = none ∧ t.numbers.Sublist (s.numbers ++ [s.nextAcceptance])

theorem NumbersKept.of_eq {s t : State} (hqueue : t.queue = s.queue) (hnext : t.nextAcceptance = s.nextAcceptance)
    (hheld : t.held = s.held) : NumbersKept s t :=
  ⟨by rw [State.numbers, hqueue]; exact List.Sublist.refl _, hnext, fun h => hheld.trans h⟩

/-- One of the two: the held write is the only one that a chain can add to the queue. -/
def NumbersFlow (s t : State) : Prop := NumbersKept s t ∨ NumberAdded s t

theorem NumbersFlow.trans {s u t : State} (h : NumbersFlow s u) (h' : NumbersFlow u t) : NumbersFlow s t := by
  obtain ⟨hsub, hnext, hheld⟩ | ⟨hsome, hnone, hsub⟩ := h
  · obtain ⟨hsub', hnext', hheld'⟩ | ⟨hsome', hnone', hsub'⟩ := h'
    · exact .inl ⟨hsub'.trans hsub, hnext'.trans hnext, hheld' ∘ hheld⟩
    · exact .inr ⟨mt hheld hsome', hnone', hsub'.trans (by rw [hnext]; exact hsub.append_right _)⟩
  · obtain ⟨hsub', _, hheld'⟩ | ⟨hsome', _, _⟩ := h'
    · exact .inr ⟨hsome, hheld' hnone, hsub'.trans hsub⟩
    · exact absurd hnone hsome'

theorem NumbersFlow.of_eq {s t : State} (hqueue : t.queue = s.queue) (hnext : t.nextAcceptance = s.nextAcceptance)
    (hheld : t.held = s.held) : NumbersFlow s t :=
  .inl (.of_eq hqueue hnext hheld)

theorem State.acceptWrite_numbers (s : State) (address : Address) (beats : List Beat) :
    (s.acceptWrite address beats).numbers = s.numbers ++ [s.nextAcceptance] := by
  simp [State.numbers, State.acceptWrite]

theorem NumbersFlow.acceptHeldWrite (s : State) : NumbersFlow s s.acceptHeldWrite := by
  obtain h | ⟨address, beats, hheld, _, h⟩ := s.acceptHeldWrite_cases
  · rw [h]
    exact .of_eq rfl rfl rfl
  · refine .inr ⟨by simp [hheld], by rw [h]; rfl, ?_⟩
    rw [h, State.acceptWrite_numbers]
    exact List.Sublist.refl _

/-- A request that is taken in adds its number, or nothing. -/
theorem State.takeIn_numbers (s : State) (q : Request) :
    (s.takeIn q).numbers = s.numbers ∧ (s.takeIn q).nextAcceptance = s.nextAcceptance
      ∨ (s.takeIn q).numbers = s.numbers ++ [s.nextAcceptance] ∧ (s.takeIn q).held = s.held := by
  obtain ⟨p, h⟩ | ⟨address, beats, _, h⟩ | h | ⟨f, h⟩ := s.takeIn_cases q
  · exact .inl (by rw [h]; exact ⟨rfl, rfl⟩)
  · exact .inr (by rw [h]; exact ⟨s.acceptWrite_numbers _ _, by simp⟩)
  · exact .inl (by rw [h]; exact ⟨rfl, rfl⟩)
  · exact .inl (by rw [h]; simp [State.numbers])

theorem NumbersFlow.takeInHeld (s : State) : NumbersFlow s s.takeInHeld := by
  obtain h | ⟨q, hheld, h⟩ := s.takeInHeld_cases
  · rw [h]
    exact .of_eq rfl rfl rfl
  · rw [h]
    obtain ⟨hn, hnext⟩ | ⟨hn, hnone⟩ := State.takeIn_numbers { s with held := none } q
    · exact .inl ⟨by rw [hn]; exact List.Sublist.refl _, hnext, fun hc => by simp [hheld] at hc⟩
    · exact .inr ⟨by simp [hheld], hnone, by rw [hn]; exact List.Sublist.refl _⟩

/-- A link of the chain takes entries out of the queue, or adds the held write. -/
theorem Effect.numbersFlow {r : Requester} {s t : State} (h : Effect r s t) : NumbersFlow s t := by
  induction h with
  | refl => exact .of_eq rfl rfl rfl
  | quiet _ hface ih =>
    exact ih.trans (.of_eq (State.face_queue hface) (State.face_nextAcceptance hface) (State.face_held hface))
  | accept _ ih => exact ih.trans (.acceptHeldWrite _)
  | takeInHeld _ ih => exact ih.trans (.takeInHeld _)
  | thin _ q hq ih =>
    refine ih.trans (.inl ⟨?_, rfl, id⟩)
    simpa [State.numbers, Entry.tag, Function.comp_def] using hq.map Prod.fst
  | dropHeld _ ih => exact ih.trans (.inl ⟨List.Sublist.refl _, rfl, fun _ => rfl⟩)
  | file _ _ ih | request _ _ ih => exact ih.trans (.of_eq (by simp) (by simp) (by simp))
  | read _ _ _ ih | flag _ _ ih => exact ih.trans (.of_eq rfl rfl rfl)

theorem NumbersFlow.sublist {s t : State} (h : NumbersFlow s t) :
    t.numbers.Sublist (s.numbers ++ [s.nextAcceptance]) := by
  obtain ⟨hsub, _, _⟩ | ⟨_, _, hsub⟩ := h
  · exact hsub.trans (List.sublist_append_left _ _)
  · exact hsub

/-- A command takes entries out of the queue and adds at most one, with the next number, at its end (R117, R118). -/
theorem exec_numbers {c : Instr} {s t : State} (he : exec c s = .next t) :
    t.numbers.Sublist (s.numbers ++ [s.nextAcceptance]) := by
  have hkept : ∀ u : State, u.queue = s.queue → u.numbers.Sublist (s.numbers ++ [s.nextAcceptance]) := by
    intro u hu
    rw [State.numbers, hu]
    exact List.sublist_append_left _ _
  cases exec_stepEffect he with
  | chain r h => exact h.numbersFlow.sublist
  | presented q =>
    obtain h | ⟨_, h | h | h⟩ := s.present_cases q
    · exact hkept _ (by rw [h])
    · rw [h]
      obtain ⟨hn, _⟩ | ⟨hn, _⟩ := State.takeIn_numbers { s with frontResponse := none } q
      · rw [hn]
        exact List.sublist_append_left _ _
      · rw [hn]
        exact List.Sublist.refl _
    · exact hkept _ (by rw [h]; simp)
    · exact hkept _ (by rw [h])
  | finished f m _ _ h => exact (NumbersFlow.trans (.of_eq (by simp) (by simp) (by simp)) h.numbersFlow).sublist
  | retried | expired => exact hkept _ rfl
  | popped => exact hkept _ (by simp)
  | reset left => exact List.nil_sublist _

/-! ## The post queue and the bus -/

/-- A completed entry is a completed tag. -/
theorem completedQueued_iff (s : State) : s.completedQueued = true ↔ AckMode.completed ∈ s.queue.map Entry.mark := by
  simp [State.completedQueued, Entry.completed]

theorem State.acceptWrite_queueLaw {s : State} (hroom : s.queueHasRoom = true) (address : Address) (beats : List Beat) :
    (s.acceptWrite address beats).queueLaw := by
  have := (State.queue_of_hasRoom hroom).1
  simp only [State.queueLaw, State.acceptWrite, List.length_append, List.length_singleton]
  omega

theorem State.takeIn_queueLaw {s : State} (h : s.queueLaw) (q : Request) : (s.takeIn q).queueLaw := by
  obtain ⟨p, hq⟩ | ⟨address, beats, hroom, hq⟩ | hq | ⟨f, hq⟩ := s.takeIn_cases q
  · rwa [hq]
  · rw [hq]
    exact State.acceptWrite_queueLaw hroom address beats
  · rwa [hq]
  · rw [hq]
    simpa [State.queueLaw] using h

/-- An entry joins the queue only where it has room (R115). -/
theorem Effect.queueLaw {r : Requester} {s t : State} (h : Effect r s t) (hs : s.queueLaw) : t.queueLaw := by
  induction h with
  | refl => exact hs
  | quiet _ hface ih => rwa [State.queueLaw, State.face_queue hface]
  | accept _ ih =>
    next u _ =>
    obtain hself | ⟨address, beats, _, hroom, hacc⟩ := u.acceptHeldWrite_cases
    · rwa [hself]
    · rw [hacc]
      exact State.acceptWrite_queueLaw hroom address beats
  | takeInHeld _ ih =>
    next u _ =>
    obtain hself | ⟨q, _, hq⟩ := u.takeInHeld_cases
    · rwa [hself]
    · rw [hq]
      exact State.takeIn_queueLaw (s := { u with held := none }) ih q
  | thin _ q hq ih =>
    have hlen := hq.length_le
    simp only [List.length_map] at hlen
    exact hlen.trans ih
  | file _ _ ih | request _ _ ih => simpa [State.queueLaw] using ih
  | dropHeld _ ih | read _ _ _ ih | flag _ _ ih => exact ih

/-- No request is on the bus (R110). -/
def State.busIdle (s : State) : Prop := s.held = none ∧ s.pendingRead = none ∧ s.completedQueued = false

/-- With no completed entry, the held request and the pending read exclude each other (R110). -/
theorem State.busLaw_of_unqueued {s : State} (hqueued : s.completedQueued = false)
    (h : s.held = none ∨ s.pendingRead = none) : s.busLaw := by
  refine ⟨fun hheld => ⟨?_, hqueued⟩, fun _ => hqueued, fun hc => absurd hc (by simp [hqueued])⟩
  obtain h | h := h
  · simp [h] at hheld
  · exact h

theorem State.busIdle.busLaw {s : State} (h : s.busIdle) : s.busLaw := State.busLaw_of_unqueued h.2.2 (.inl h.1)

/-- A write that is accepted from an idle bus is the only request on it (R115). -/
theorem State.acceptWrite_busLaw {s : State} (h : s.busIdle) (hroom : s.queueHasRoom = true) (address : Address)
    (beats : List Beat) : (s.acceptWrite address beats).busLaw := by
  obtain ⟨hheld, hread, hqueued⟩ := h
  refine ⟨by simp [hheld], by simp [hread], fun hc => ?_⟩
  have hmode : s.ackMode = .completed := by
    have : s.completedQueued = true ∨ s.ackMode = .completed := by
      simpa only [State.completedQueued, State.acceptWrite, List.any_append, Bool.or_eq_true, List.any_cons,
        List.any_nil, Bool.or_false, Entry.completed, beq_iff_eq] using hc
    simpa [hqueued] using this
  simp [State.acceptWrite, (State.queue_of_hasRoom hroom).2 hmode]

theorem State.takeIn_busLaw {s : State} (h : s.busIdle) (q : Request) : (s.takeIn q).busLaw := by
  obtain ⟨p, hq⟩ | ⟨address, beats, hroom, hq⟩ | hq | ⟨f, hq⟩ := s.takeIn_cases q
  · rw [hq]
    obtain ⟨hheld, _, hqueued⟩ := h
    exact State.busLaw_of_unqueued hqueued (.inl hheld)
  · rw [hq]
    exact State.acceptWrite_busLaw h hroom address beats
  · rw [hq]
    obtain ⟨_, hread, hqueued⟩ := h
    exact State.busLaw_of_unqueued hqueued (.inr hread)
  · rw [hq]
    refine State.busIdle.busLaw ?_
    simpa [State.busIdle, State.completedQueued] using h

/-- The held request leaves an idle bus (R110). -/
theorem State.busLaw.idle_of_held {s : State} (h : s.busLaw) (hheld : s.held ≠ none) :
    ({ s with held := none } : State).busIdle := by
  obtain ⟨hread, hqueued⟩ := h.1 (Option.isSome_iff_ne_none.mpr hheld)
  exact ⟨rfl, hread, hqueued⟩

/-- The law of the bus looks at the bus alone. -/
theorem State.busLaw_congr {s t : State} (hqueue : t.queue = s.queue) (hheld : t.held = s.held)
    (hread : t.pendingRead = s.pendingRead) (h : s.busLaw) : t.busLaw := by
  rw [State.busLaw, State.completedQueued, hqueue, hheld, hread]
  exact h

/-- A link of the chain moves the one request of the bus on, or takes it off (R110, R115). -/
theorem Effect.busLaw {r : Requester} {s t : State} (h : Effect r s t) (hs : s.busLaw) : t.busLaw := by
  induction h with
  | refl => exact hs
  | quiet _ hface ih =>
    exact State.busLaw_congr (State.face_queue hface) (State.face_held hface) (State.face_pendingRead hface) ih
  | accept _ ih =>
    next u _ =>
    obtain hself | ⟨address, beats, hheld, hroom, hacc⟩ := u.acceptHeldWrite_cases
    · rwa [hself]
    · rw [hacc]
      exact State.acceptWrite_busLaw (ih.idle_of_held (by simp [hheld])) hroom address beats
  | takeInHeld _ ih =>
    next u _ =>
    obtain hself | ⟨q, hheld, hq⟩ := u.takeInHeld_cases
    · rwa [hself]
    · rw [hq]
      exact State.takeIn_busLaw (ih.idle_of_held (by simp [hheld])) q
  | thin _ q hq ih =>
    next u _ =>
    have hmarks : (q.map Entry.mark).Sublist (u.queue.map Entry.mark) := by
      simpa [Entry.tag, Function.comp_def] using hq.map Prod.snd
    have hqueued : ({ u with queue := q } : State).completedQueued = true → u.completedQueued = true := by
      rw [completedQueued_iff, completedQueued_iff]
      exact fun hc => hmarks.subset hc
    obtain ⟨hheld, hread, hlen⟩ := ih
    refine ⟨fun hh => ⟨(hheld hh).1, ?_⟩, fun hr => ?_, fun hc => ?_⟩
    · exact Bool.eq_false_iff.mpr fun hc => absurd (hqueued hc) (by simp [(hheld hh).2])
    · exact Bool.eq_false_iff.mpr fun hc => absurd (hqueued hc) (by simp [hread hr])
    · have hle := hmarks.length_le
      simp only [List.length_map, hlen (hqueued hc)] at hle
      have hne : q ≠ [] := by rintro rfl; simp [State.completedQueued] at hc
      have := List.length_pos_iff.mpr hne
      show q.length = 1
      omega
  | dropHeld _ ih => exact ⟨by simp, ih.2.1, ih.2.2⟩
  | read _ p hp ih =>
    obtain ⟨hheld, hread, hlen⟩ := ih
    refine ⟨fun hh => ⟨?_, (hheld hh).2⟩, fun hr => hread (hp hr), hlen⟩
    have : p.isSome ≠ true := fun hps => by simpa [(hheld hh).1] using hp hps
    simpa using this
  | file _ _ ih | request _ _ ih => exact State.busLaw_congr (by simp) (by simp) (by simp) ih
  | flag _ _ ih => exact ih

theorem exec_queueLaw {c : Instr} {s t : State} (he : exec c s = .next t) (hs : s.queueLaw) : t.queueLaw := by
  cases exec_stepEffect he with
  | chain r h => exact h.queueLaw hs
  | presented q =>
    obtain h | ⟨_, h | h | h⟩ := s.present_cases q
    · rwa [h]
    · rw [h]
      exact State.takeIn_queueLaw (s := { s with frontResponse := none }) hs q
    · rw [h]
      simpa [State.queueLaw] using hs
    · rwa [h]
  | finished f m _ _ h => exact h.queueLaw (by simpa [State.queueLaw] using hs)
  | retried | expired => exact hs
  | popped => simpa [State.queueLaw] using hs
  | reset left => exact Nat.zero_le _

theorem exec_busLaw {c : Instr} {s t : State} (he : exec c s = .next t) (hs : s.busLaw) : t.busLaw := by
  cases exec_stepEffect he with
  | chain r h => exact h.busLaw hs
  | presented q =>
    obtain h | ⟨hfree, h⟩ := s.present_cases q
    · rwa [h]
    · obtain ⟨hheld, hread, hposted⟩ := s.busFree_iff.mp hfree
      have hidle : s.busIdle := by
        refine ⟨hheld, hread, Bool.eq_false_iff.mpr fun hc => ?_⟩
        obtain ⟨e, he, hmark⟩ := List.mem_map.mp ((completedQueued_iff s).mp hc)
        simp [hposted e he] at hmark
      obtain h | h | h := h
      · rw [h]
        exact State.takeIn_busLaw (s := { s with frontResponse := none }) hidle q
      · rw [h]
        exact State.busLaw_congr (by simp) (by simp) (by simp) hs
      · obtain ⟨_, _, hqueued⟩ := hidle
        rw [h]
        exact State.busLaw_of_unqueued hqueued (.inr hread)
  | finished f m _ _ h => exact h.busLaw (State.busLaw_congr (by simp) (by simp) (by simp) hs)
  | retried | expired => exact hs
  | popped => exact State.busLaw_congr (by simp) (by simp) (by simp) hs
  | reset left => exact State.busIdle.busLaw ⟨rfl, rfl, rfl⟩

/-! ## The attempts of the port -/

/-- The law of the port's attempts, as a predicate of the port state. -/
def PortState.attemptsBounded : PortState → Prop
  | .idle => True
  | .inFlight f => 1 ≤ f.attempt ∧ f.attempt ≤ f.retries.toNat + 1
  | .aborting f => 1 ≤ f.attempt ∧ f.attempt ≤ f.retries.toNat + 1

theorem State.portLaw_iff (s : State) : s.portLaw ↔ s.port.attemptsBounded := by
  unfold State.portLaw PortState.attemptsBounded
  cases s.port <;> rfl

/-- A request waits, or is granted with its first attempt (R149, R156). -/
theorem State.requestPort_cases (s : State) (r : Requester) (op : RowOp) :
    (s.port = .idle ∧ s.requestPort r op = s.grant r op) ∨ s.requestPort r op = s.setWaiting r (some op) := by
  unfold State.requestPort
  split
  · next hp =>
    split
    · exact .inl ⟨hp, rfl⟩
    · exact .inr rfl
  · exact .inr rfl
  · exact .inr rfl

/-- A waiting request is granted to a free port, or none waits (R156). -/
theorem State.arbitrate_cases (s : State) :
    s.arbitrate = s ∨ ∃ r op, s.waiting r = some op ∧ s.arbitrate = (s.setWaiting r none).grant r op := by
  unfold State.arbitrate
  split
  · next op hop => exact .inr ⟨_, op, hop, rfl⟩
  · split
    · next op hop => exact .inr ⟨_, op, hop, rfl⟩
    · exact .inl rfl

theorem State.grant_attemptsBounded (s : State) (r : Requester) (op : RowOp) :
    (s.grant r op).port.attemptsBounded := by
  simp [PortState.attemptsBounded]

theorem Effect.portLaw {r : Requester} {s t : State} (h : Effect r s t) (hs : s.portLaw) : t.portLaw := by
  rw [State.portLaw_iff] at hs ⊢
  induction h with
  | refl => exact hs
  | quiet _ hface ih => rwa [State.face_port hface]
  | request _ op ih =>
    next u _ =>
    obtain ⟨_, h⟩ | h := u.requestPort_cases r op
    · rw [h]
      exact u.grant_attemptsBounded r op
    · rw [h]
      simpa using ih
  | file _ _ ih | accept _ ih | takeInHeld _ ih => simpa using ih
  | thin _ _ _ ih | dropHeld _ ih | read _ _ _ ih | flag _ _ ih => exact ih

theorem exec_portLaw {c : Instr} {s t : State} (he : exec c s = .next t) (hs : s.portLaw) : t.portLaw := by
  cases exec_stepEffect he with
  | chain r h => exact h.portLaw hs
  | presented q =>
    rw [State.portLaw_iff] at hs ⊢
    simpa using hs
  | finished f m _ _ h =>
    refine h.portLaw ((State.portLaw_iff _).mpr ?_)
    obtain h | ⟨r, op, _, h⟩ := State.arbitrate_cases { s with mem := m, port := .idle }
    · rw [h]
      trivial
    · rw [h]
      exact State.grant_attemptsBounded _ r op
  | retried f m kind _ _ ha => exact ⟨by simp, by simpa using ha⟩
  | expired f hp =>
    rw [State.portLaw_iff, hp] at hs
    exact hs
  | popped =>
    rw [State.portLaw_iff] at hs ⊢
    simpa using hs
  | reset left => trivial

/-- Nothing is issued while an abort is outstanding (R150). -/
theorem Effect.keepsAborting {r : Requester} {s t : State} {f : Flight} (h : Effect r s t) (hs : s.port = .aborting f) :
    t.port = .aborting f := by
  induction h with
  | refl => exact hs
  | quiet _ hface ih => rwa [State.face_port hface]
  | request _ op ih =>
    rw [State.requestPort_busy _ r op (by simp [ih])]
    simpa using ih
  | file _ _ ih | accept _ ih | takeInHeld _ ih => simpa using ih
  | thin _ _ _ ih | dropHeld _ ih | read _ _ _ ih | flag _ _ ih => exact ih

/-- Until its acknowledge or a reset, an abort stays outstanding (R150). -/
theorem exec_keepsAborting {c : Instr} {s t : State} {f : Flight} (he : exec c s = .next t) (hs : s.port = .aborting f)
    (hack : ∀ left, c ≠ .abortAcknowledge left) (hreset : ∀ left, c ≠ .rstAssert left) : t.port = .aborting f := by
  have hends : ∀ g, ¬ EndsFlight c s g := by
    rintro g (⟨_, _, hp⟩ | ⟨left, ⟨_, hp⟩ | ⟨hc, _⟩⟩)
    · simp [hs] at hp
    · simp [hs] at hp
    · exact hack left hc
  cases exec_stepEffect he with
  | chain r h => exact h.keepsAborting hs
  | presented q => simpa using hs
  | finished g m hc _ _ | retried g m _ hc _ _ => exact absurd hc (hends g)
  | expired g hp => simp [hs] at hp
  | popped => simpa using hs
  | reset left hc => exact absurd hc (hreset left)

/-! ## The freeze flags -/

/-- No link of the chain clears a flag (R104). -/
theorem Effect.keepsFlags {r : Requester} {s t : State} (h : Effect r s t) (i : Fin 16) (hs : s.freeze[i] = true) :
    t.freeze[i] = true := by
  induction h with
  | refl => exact hs
  | quiet _ hface ih => rwa [State.face_freeze hface]
  | flag _ region ih =>
    next u _ =>
    show (u.freeze.set region true)[i] = true
    by_cases hi : (region : Nat) = i
    · simp [hi]
    · simpa [Vector.getElem_set, hi] using ih
  | file _ _ ih | accept _ ih | takeInHeld _ ih | request _ _ ih => simpa using ih
  | thin _ _ _ ih | dropHeld _ ih | read _ _ _ ih => exact ih

/-- Only a reset clears a flag (R104). -/
theorem exec_keepsFlags {c : Instr} {s t : State} (he : exec c s = .next t) (hreset : ∀ left, c ≠ .rstAssert left)
    (i : Fin 16) (hs : s.freeze[i] = true) : t.freeze[i] = true := by
  cases exec_stepEffect he with
  | chain r h => exact h.keepsFlags i hs
  | presented q => simpa using hs
  | finished f m _ _ h => exact h.keepsFlags i (by simpa using hs)
  | retried | expired => exact hs
  | popped => simpa using hs
  | reset left hc => exact absurd hc (hreset left)

/-! ## The statements -/

/-- A step runs one command, or leaves the state (R178). -/
theorem step_cases {s t : State} (h : step s = .next t) :
    (s.pending = [] ∧ t = s) ∨ ∃ c rest, s.pending = c :: rest ∧ exec c { s with pending := rest } = .next t := by
  unfold step at h
  split at h
  · next hp => exact .inl ⟨hp, (Host.Outcome.next.inj h).symm⟩
  · next c rest hp => exact .inr ⟨c, rest, hp, h⟩

/-- A law that every command keeps and that does not look at the waiting commands is kept by every step. -/
theorem step_keeps {P : State → Prop} (hpending : ∀ s l, P s → P { s with pending := l })
    (hexec : ∀ {c s t}, exec c s = .next t → P s → P t) {s t : State} (hs : P s) (h : step s = .next t) : P t := by
  obtain ⟨_, rfl⟩ | ⟨c, rest, _, he⟩ := step_cases h
  · exact hs
  · exact hexec he (hpending s rest hs)

/-- Settles O5: no link of a command's chain takes a record out of the log, and a filing joins it or is counted. -/
theorem faultLogLawIsKept : Obligations.FaultLogLawIsKept := by
  refine ⟨fun s t hs h => step_keeps (fun _ _ => id) exec_logLaw hs h,
    fun c s t he hpop hreset => (exec_logGrows he hpop hreset).1, fun s f => ⟨fun hlt => ?room, fun hge => ?full⟩⟩
  case room => exact if_pos hlt
  case full => rw [State.file, if_neg (Nat.not_lt.mpr hge), countUp_eq]

/-- Settles O6, from the three laws link by link. -/
theorem portLawsAreKept : Obligations.PortLawsAreKept :=
  ⟨fun _ _ hs h => step_keeps (fun _ _ => id) exec_queueLaw hs h,
    fun _ _ hs h => step_keeps (fun _ _ => id) exec_busLaw hs h,
    fun _ _ hs h => step_keeps (fun _ _ => id) exec_portLaw hs h⟩

/-- Settles O12: the flags are kept link by link, so the command that clears one is a reset. -/
theorem freezeFlagsAreClearedOnlyByReset : Obligations.FreezeFlagsAreClearedOnlyByReset := by
  intro s t i hs h ht
  obtain ⟨_, rfl⟩ | ⟨c, rest, hp, he⟩ := step_cases h
  · exact absurd (hs.symm.trans ht) (by simp)
  · by_contra hno
    have hreset : ∀ left, c ≠ .rstAssert left := by
      rintro left rfl
      exact hno ⟨left, rest, hp⟩
    exact absurd ((exec_keepsFlags he hreset i hs).symm.trans ht) (by simp)

/-- Settles O13, from the acceptance numbers link by link. -/
theorem acceptanceOrderIsKept : Obligations.AcceptanceOrderIsKept := fun _ _ _ he => exec_numbers he

end Sys2Proof.Machine

/-! SUPPORT. The rows of the memory device: only an answer of the device changes one, and only that of the row operation in
flight (R91, R93, R149, R159). That every command answers with a next state, and that the state after reset satisfies
every law. -/
namespace Sys2Proof.Machine

set_option Elab.async false

/-! ## The waiting commands and the rows -/

/-- No link of the chain touches the waiting commands or the rows of the memory. -/
theorem Effect.keepsPendingAndMem {r : Requester} {s t : State} (h : Effect r s t) :
    t.pending = s.pending ∧ t.mem = s.mem := by
  induction h with
  | refl => exact ⟨rfl, rfl⟩
  | quiet _ hface ih => exact ⟨(State.face_pending hface).trans ih.1, (State.face_mem hface).trans ih.2⟩
  | file _ _ ih | accept _ ih | takeInHeld _ ih | request _ _ ih => simpa using ih
  | thin _ _ _ ih | dropHeld _ ih | read _ _ _ ih | flag _ _ ih => exact ih

theorem exec_pending {c : Instr} {s t : State} (he : exec c s = .next t) : t.pending = s.pending := by
  cases exec_stepEffect he with
  | chain r h => exact h.keepsPendingAndMem.1
  | presented => simp
  | finished f m _ _ h => simpa using h.keepsPendingAndMem.1
  | retried | expired => rfl
  | popped => simp
  | reset => rfl

/-- What a command makes of the rows: nothing, an answer of the device, or the end of an attempt by a reset. -/
theorem exec_mem {c : Instr} {s t : State} (he : exec c s = .next t) :
    t.mem = s.mem ∨ ∃ f, (s.port = .inFlight f ∨ s.port = .aborting f) ∧ AnsweredMemory c s f t.mem := by
  have hport : ∀ f, EndsFlight c s f → s.port = .inFlight f ∨ s.port = .aborting f := by
    rintro f (⟨_, _, hp⟩ | ⟨_, ⟨_, hp⟩ | ⟨_, hp⟩⟩)
    · exact .inl hp
    · exact .inl hp
    · exact .inr hp
  cases exec_stepEffect he with
  | chain r h => exact .inl h.keepsPendingAndMem.2
  | presented => exact .inl (by simp)
  | finished f m hc hm h =>
    have hmem : t.mem = m := by simpa using h.keepsPendingAndMem.2
    exact .inr ⟨f, hport f hc, hmem ▸ hm⟩
  | retried f m _ hc hm => exact .inr ⟨f, hport f hc, hm⟩
  | expired => exact .inl rfl
  | popped => exact .inl (by simp)
  | reset left =>
    unfold State.resetWith
    split
    · exact .inl rfl
    · next f hp => exact .inr ⟨f, .inl hp, .inr ⟨left, rfl⟩⟩
    · next f hp => exact .inr ⟨f, .inr hp, .inr ⟨left, rfl⟩⟩

/-- An answer leaves the rows, or writes the row of its operation: of a write, or of a read whose row the device has
altered (R93, R149). -/
theorem AnsweredMemory.cases {c : Instr} {s : State} {f : Flight} {m : Memory} (h : AnsweredMemory c s f m) :
    m = s.mem ∨ (∃ x, m = s.mem.write f.op.row x)
      ∧ ((∃ content, f.op = .write f.op.row content) ∨ ∃ x, c = .memoryAttemptDone (some x)) := by
  obtain ⟨delivered, rfl, rfl⟩ | ⟨left, rfl⟩ := h
  · unfold completeAttempt
    split
    · next row content hop => exact .inr ⟨⟨content, by rw [hop]; rfl⟩, .inl ⟨content, by rw [hop]; rfl⟩⟩
    · next row hop =>
      split
      · exact .inl rfl
      · next x => exact .inr ⟨⟨x, by rw [hop]; rfl⟩, .inr ⟨x, rfl⟩⟩
  · unfold State.leaveResidue
    split
    · exact .inl rfl
    · next row content hop => exact .inr ⟨⟨_, by rw [hop]; rfl⟩, .inl ⟨content, by rw [hop]; rfl⟩⟩

theorem exec_memoryLaw {c : Instr} {s t : State} (he : exec c s = .next t) (hs : s.memoryLaw) : t.memoryLaw := by
  unfold State.memoryLaw at hs ⊢
  obtain h | ⟨f, _, h⟩ := exec_mem he
  · rwa [h]
  · obtain h | ⟨⟨x, h⟩, _⟩ := h.cases
    · rwa [h]
    · rw [h]
      exact Memory.write_wf _ _ _ hs

/-- Settles O4: the device's answer writes the row of the row operation in flight, and no other row reads otherwise. -/
theorem onlyTheRowInFlightChanges : Obligations.OnlyTheRowInFlightChanges := by
  refine ⟨fun s t hs h => step_keeps (fun _ _ => id) exec_memoryLaw hs h, fun c s t row he hrow => ?_⟩
  obtain h | ⟨f, hport, h⟩ := exec_mem he
  · exact absurd (by rw [h]) hrow
  · obtain h | ⟨⟨x, h⟩, hop⟩ := h.cases
    · exact absurd (by rw [h]) hrow
    · have hsame : f.op.row = row := by
        by_contra hne
        exact hrow (by rw [h, Memory.read_write_other _ _ _ _ (Ne.symm hne)])
      exact ⟨f, hport, hsame, hop.imp_left fun ⟨content, hc⟩ => ⟨content, hsame ▸ hc⟩⟩

/-! ## The machine -/

/-- Settles O1, by the definition of a step. -/
theorem stepRunsTheFrontCommand : Obligations.StepRunsTheFrontCommand :=
  ⟨fun _ _ _ => rfl, fun s hs => by rw [step, hs]⟩

theorem exec_total (c : Instr) (s : State) : ∃ t, exec c s = .next t := by
  cases c
  case memoryAttemptDone | memoryAttemptFail | attemptTimerExpiry | abortAcknowledge =>
    simp only [exec, execMemoryAttemptDone, execMemoryAttemptFail, execAttemptTimerExpiry, execAbortAcknowledge]
    split <;> exact ⟨_, rfl⟩
  case drainEnd =>
    simp only [exec, execDrainEnd]
    split
    · split
      · exact ⟨_, rfl⟩
      · next o _ => cases o.kind <;> exact ⟨_, rfl⟩
    · exact ⟨_, rfl⟩
  all_goals exact ⟨_, rfl⟩

/-- Settles O2: every arm answers a next state, and no link of a command's chain touches the waiting commands. -/
theorem everyCommandAnswersNext : Obligations.EveryCommandAnswersNext := fun c s =>
  let ⟨t, he⟩ := exec_total c s
  ⟨t, he, exec_pending he⟩

/-- The reset state has no configuration, no job, no operation and nothing on MAINT, so that each law that speaks of one
holds of it (R74, R86). -/
theorem reset_emptyLaws : State.reset.configLaw ∧ State.reset.exclusionLaw ∧ State.reset.tailLaw
    ∧ State.reset.frontLaw ∧ State.reset.recordLaw ∧ State.reset.recoveryLaw := by
  simp [State.configLaw, State.exclusionLaw, State.tailLaw, State.frontLaw, State.recordLaw, State.recoveryLaw,
    State.reset, State.loadedFirst, State.copyWork, State.journaledWriteJob, State.tail, State.frontOps,
    JournalState.executing]

/-- Settles O3, from the start values. -/
theorem resetSatisfiesEveryLaw : Obligations.ResetSatisfiesEveryLaw := by
  obtain ⟨hconfig, hexclusion, htail, hfront, hrecord, hrecovery⟩ := reset_emptyLaws
  have hindex : State.reset.indexLaw :=
    ⟨List.Pairwise.nil, fun _ => rfl, fun _ _ h => by simp [State.reset] at h, fun _ _ h => by
      simp [State.scannedSlots, State.reset] at h⟩
  have hstack : State.reset.stackLaw :=
    ⟨Nat.zero_le _, List.Pairwise.nil, fun _ h => by simp [State.reset] at h, fun _ => .inl rfl⟩
  exact ⟨rfl, ⟨Nat.zero_le _, fun h => absurd rfl h⟩, Nat.zero_le _, State.busIdle.busLaw ⟨rfl, rfl, rfl⟩, hindex,
    trivial, hconfig, hstack, hexclusion, htail, hfront, hrecord, hrecovery⟩

end Sys2Proof.Machine

/-! SUPPORT. The course of the journal and of the long operations, said once: what a command's meaning does to the work
on MAINT, the journal state, the long operation, the tables, the configuration and the savepoint stack is a chain of a
few moves, each under the condition that the model has checked when it makes it. The laws that tie these blocks
together are then proved move by move. -/
namespace Sys2Proof.Machine

set_option Elab.async false

/-! ## What the course speaks of -/

/-- What of a long operation the laws speak of: all but its counts (R44). -/
def LongOp.identity (o : LongOp) : OpKind × Origin × OpPhase := (o.kind, o.origin, o.phase)

/-- The port is IDLE. -/
def State.portIdle (s : State) : Bool :=
  match s.port with
  | .idle => true
  | .inFlight _ => false
  | .aborting _ => false

theorem State.portIdle_iff (s : State) : s.portIdle = true ↔ s.port = .idle := by
  unfold State.portIdle
  split <;> simp_all

/-- What of the state the course speaks of. -/
structure View where
  inReset : Bool
  active : Option ConfigRecord
  staging : ConfigRecord
  activationDue : Bool
  maint : Option MaintTask
  journal : JournalState
  operation : Option (OpKind × Origin × OpPhase)
  slots : List SlotEntry
  slotHeaders : List SlotHeader
  index : List (Nat × Nat)
  stack : List Nat
  job : Option Job
  recoveryMark : Option Nat
  frontOps : List RowOp
  portIdle : Bool

def State.view (s : State) : View where
  inReset := s.inReset
  active := s.active
  staging := s.staging
  activationDue := s.activationDue
  maint := s.maint
  journal := s.journal
  operation := s.longOp.map LongOp.identity
  slots := s.slots
  slotHeaders := s.slotHeaders
  index := s.index
  stack := s.stack
  job := s.job
  recoveryMark := s.recoveryMark
  frontOps := s.frontOps
  portIdle := s.portIdle

section
variable {u t : State} (h : t.view = u.view)
include h

theorem State.view_inReset : t.inReset = u.inReset := congrArg View.inReset h

theorem State.view_active : t.active = u.active := congrArg View.active h

theorem State.view_staging : t.staging = u.staging := congrArg View.staging h

theorem State.view_activationDue : t.activationDue = u.activationDue := congrArg View.activationDue h

theorem State.view_maint : t.maint = u.maint := congrArg View.maint h

theorem State.view_journal : t.journal = u.journal := congrArg View.journal h

theorem State.view_operation : t.longOp.map LongOp.identity = u.longOp.map LongOp.identity :=
  congrArg View.operation h

theorem State.view_slots : t.slots = u.slots := congrArg View.slots h

theorem State.view_slotHeaders : t.slotHeaders = u.slotHeaders := congrArg View.slotHeaders h

theorem State.view_index : t.index = u.index := congrArg View.index h

theorem State.view_stack : t.stack = u.stack := congrArg View.stack h

theorem State.view_job : t.job = u.job := congrArg View.job h

theorem State.view_recoveryMark : t.recoveryMark = u.recoveryMark := congrArg View.recoveryMark h

theorem State.view_frontOps : t.frontOps = u.frontOps := congrArg View.frontOps h

theorem State.view_portIdle : t.portIdle = u.portIdle := congrArg View.portIdle h

theorem State.view_kind : t.longOp.map LongOp.kind = u.longOp.map LongOp.kind := by
  simpa [Function.comp_def, LongOp.identity] using congrArg (Option.map Prod.fst) (State.view_operation h)

end

/-! ## A request on MAINT -/

@[simp] theorem State.runMaint_maint (u : State) (task : MaintTask) (op : RowOp) :
    (u.runMaint task op).maint = some task := by
  simp [State.runMaint]

/-- A request of MAINT leaves the row operations of FRONT as they are (R156). -/
@[simp] theorem State.requestPort_maint_frontOps (u : State) (op : RowOp) :
    (u.requestPort .maint op).frontOps = u.frontOps := by
  obtain ⟨hp, h⟩ | h := u.requestPort_cases .maint op
  · rw [h]
    simp [State.frontOps, State.grant, hp]
  · rw [h]
    rfl

@[simp] theorem State.runMaint_frontOps (u : State) (task : MaintTask) (op : RowOp) :
    (u.runMaint task op).frontOps = u.frontOps :=
  State.requestPort_maint_frontOps { u with maint := some task } op

/-- A request of MAINT takes an IDLE port, unless FRONT waits (R156). -/
theorem State.runMaint_portIdle (u : State) (task : MaintTask) (op : RowOp) :
    (u.runMaint task op).portIdle = (u.portIdle && !u.frontOps.isEmpty) := by
  cases hport : u.port with
  | idle =>
    cases hwait : u.waitFront with
    | none | some w =>
      simp [State.runMaint, State.requestPort, hport, hwait, State.portIdle, State.frontOps, State.waiting,
        Requester.other, State.grant, State.setWaiting]
  | inFlight f | aborting f =>
    simp [State.runMaint, State.requestPort, hport, State.portIdle, State.setWaiting]

/-- A request on MAINT reads no more of the state than the view holds. -/
theorem State.runMaint_view {u v : State} (h : v.view = u.view) (task : MaintTask) (op op' : RowOp) :
    (v.runMaint task op').view = (u.runMaint task op).view := by
  have hidle : (v.runMaint task op').portIdle = (u.runMaint task op).portIdle := by
    rw [State.runMaint_portIdle, State.runMaint_portIdle, State.view_portIdle h, State.view_frontOps h]
  simp only [State.view, View.mk.injEq] at h ⊢
  simp [hidle, h]

end Sys2Proof.Machine

/-! SUPPORT. The moves of the course, and that every operation of the model on MAINT, of a long operation and of the
start is a chain of them. -/
namespace Sys2Proof.Machine

set_option Elab.async false

/-! ## The moves -/

/-- A row operation of the journal that reads and writes no record of the tables: of an advance, a wipe or a format. -/
def MaintTask.plain : MaintTask → Bool
  | .wipeHeader _ _ => true
  | .anchorWrite _ _ _ => true
  | .anchorConfirm _ _ _ => true
  | .formatAnchor _ _ => true
  | .formatHeader _ _ => true
  | .loadRow _ _ _ _ => false
  | .anchorRead _ => false
  | .scanHeader _ _ _ => false
  | .restoreImage _ => false
  | .restoreTarget _ => false
  | .slotZeroClear => false
  | .copyClear _ => false
  | .copyBody _ _ => false
  | .copyClose _ => false
  | .copyConfirm _ _ _ => false

/-- A task of a kind is on MAINT. -/
def State.onMaint (u : State) (p : MaintTask → Bool) : Prop := ∃ task, u.maint = some task ∧ p task = true

/-- No activation waits for the long operation, as the model knows it where one ends: MAINT is at work, or the operation
waits, or is no APPLY (R170, R172). -/
def State.closable (u : State) : Prop :=
  u.maint ≠ none ∨ u.activationDue = false ∨ ∃ o, u.longOp = some o ∧ (o.phase = .waiting ∨ o.kind ≠ .apply)

/-- The Journal Unit is at work on MAINT, or goes to work in an executing state (R50, R76). -/
def State.journalWorks (u : State) : Prop :=
  u.onMaint MaintTask.ofJournal ∨ (u.inReset = false ∧ u.journal.executing = true ∧ u.closable)

/-- The task that MAINT may be asked for next. -/
inductive Follows (u : State) : MaintTask → Prop
  /-- The load goes on; the record it carries is its own, or has been classified VALID (R164). -/
  | load (c : Copy) (i : Nat) (rows : List RowData) (first : Option ConfigRecord) (hmaint : u.onMaint MaintTask.ofLoad)
      (hfirst : ∀ r, first = some r → u.loadedFirst = some r ∨ r.valid = true) : Follows u (.loadRow c i rows first)
  /-- The journal's own work goes on. -/
  | plain (task : MaintTask) (htask : task.plain = true) (hworks : u.journalWorks) : Follows u task
  /-- The image of a restore has been read (R52). -/
  | target (j : Nat) (hrestoring : u.restoring = true) : Follows u (.restoreTarget j)
  /-- A restore begins, with a slot left to restore (R52, R54, R56). -/
  | image (j : Nat) (hworks : u.journalWorks) (hfloor : u.restoreFloor < u.tail)
      (hstack : u.stack = [] ∨ (u.longOp.map LongOp.kind) = some .undo) : Follows u (.restoreImage j)
  /-- The second anchor of the start is read (R78). -/
  | anchor (c c' : Copy) (hmaint : u.maint = some (.anchorRead c)) : Follows u (.anchorRead c')
  /-- The scan begins (R79). -/
  | scan (c : Copy) (hmaint : u.maint = some (.anchorRead c)) : Follows u (.scanHeader 0 [] [])
  /-- The scan has accepted a slot, and there is a next one (R79). -/
  | scanNext (k : Nat) (headers : List SlotHeader) (accepted : List SlotEntry) (header : SlotHeader) (e : SlotEntry)
      (hmaint : u.maint = some (.scanHeader k headers accepted)) (hlink : e.backLink = newestSlot accepted e.target)
      (hk : k + 1 < u.nSlots.toNat) : Follows u (.scanHeader (k + 1) (headers ++ [header]) (accepted ++ [e]))
  /-- The copy write of an APPLY goes on (R170). -/
  | copy (task : MaintTask) (htask : task.ofCopyWrite = true) (hmaint : u.onMaint MaintTask.ofCopyWrite) : Follows u task

/-- The slots that a scan which stops takes over: those it has accepted, with the last one read or without (R79). -/
inductive ScanTaken (headers : List SlotHeader) (accepted : List SlotEntry) :
    List SlotHeader → List SlotEntry → Prop
  | these : ScanTaken headers accepted headers accepted
  | andLast (header : SlotHeader) (e : SlotEntry) (hlink : e.backLink = newestSlot accepted e.target) :
      ScanTaken headers accepted (headers ++ [header]) (accepted ++ [e])

/-- How a savepoint stack changes as an operation ends that has found no journaled job in progress (R30 to R32). -/
inductive StackMove (u : State) : List Nat → Prop
  | same : StackMove u u.stack
  | emptied (hjob : u.journaledJobInProgress = false) : StackMove u []
  | pushed (hjob : u.journaledJobInProgress = false) (hroom : u.stack.length < 7) : StackMove u (u.tail :: u.stack)
  | popped (hjob : u.journaledJobInProgress = false) (p : Nat) (rest : List Nat) (hstack : u.stack = p :: rest) :
      StackMove u rest

/-- The long operation ends, and with it its work on MAINT. -/
def State.closed (u : State) (journal : JournalState) (recoveryMark : Option Nat) (stack : List Nat) : State :=
  { u with journal := journal, longOp := none, maint := none, recoveryMark := recoveryMark, stack := stack }

/-- The journal state a long operation is taken in (R45). -/
def State.journalTaken (u : State) : JournalState := if u.journal = .opened then .draining else u.journal

/-- The long operation, if any, and the journal state as the load ends: as they are, or a latched COMMIT taken in OPEN
(R81, R189). -/
inductive LatchMove (u : State) : Option LongOp → JournalState → Prop
  | same : LatchMove u u.longOp u.journal
  | taken (o : LongOp) (horigin : o.origin = .line) (hkind : o.kind = .commit) (hphase : o.phase = .waiting)
      (hopened : u.journal = .opened) : LatchMove u (some o) .draining

/-- The state is reached from `s` by a chain of moves. -/
inductive Course (s : State) : State → Prop
  | refl : Course s s
  /-- Nothing that the course speaks of changes. -/
  | quiet {u t : State} (h : Course s u) (hview : t.view = u.view) : Course s t
  /-- The staging record changes outside an APPLY (R167). -/
  | stage {u : State} (h : Course s u) (c : ConfigRecord) (hkind : (u.longOp.map LongOp.kind) ≠ some .apply) :
      Course s { u with staging := c }
  /-- A long operation is taken (R45). -/
  | take {u : State} (h : Course s u) (o : LongOp) (hnone : u.longOp = none) (horigin : o.origin ≠ .start)
      (hphase : o.phase = .waiting) : Course s { u with longOp := some o, journal := u.journalTaken }
  /-- A long operation ends, or the start does (R70, R81). -/
  | close {u : State} (h : Course s u) (journal : JournalState) (recoveryMark : Option Nat) (stack : List Nat)
      (hclosable : u.closable) (hjournal : journal.executing = false ∨ journal = u.journal)
      (hstack : StackMove u stack) : Course s (u.closed journal recoveryMark stack)
  /-- A drain ends, and its operation goes to work (R50). -/
  | execute {u : State} (h : Course s u) (o : LongOp) (journal : JournalState) (stack : List Nat)
      (hop : u.longOp = some o) (hwaiting : o.phase = .waiting) (hreset : u.inReset = false)
      (hjob : u.journaledJobInProgress = false) (hjournal : journal.executing = true ∨ journal = u.journal)
      (hstack : stack = u.stack ∨ stack = []) :
      Course s { u with longOp := some { o with phase := .executing }, journal := journal, stack := stack }
  /-- A drain ends, and an APPLY that passes its checks begins its copy write (R169, R170). -/
  | beginCopy {u : State} (h : Course s u) (o : LongOp) (task : MaintTask) (op : RowOp) (hop : u.longOp = some o)
      (hwaiting : o.phase = .waiting) (hkind : o.kind = .apply) (hreset : u.inReset = false)
      (hvalid : u.staging.valid = true) (htask : task.ofCopyWrite = true) :
      Course s (({ u with longOp := some { o with phase := .executing } } : State).runMaint task op)
  /-- MAINT is asked for the next row operation. -/
  | ask {u : State} (h : Course s u) (task : MaintTask) (op : RowOp) (hfollows : Follows u task) :
      Course s (u.runMaint task op)
  /-- The copies are confirmed, and the activation waits (R170, R172). -/
  | due {u : State} (h : Course s u) (hmaint : u.onMaint MaintTask.ofCopyWrite) :
      Course s { u with maint := none, activationDue := true }
  /-- The staged record becomes active, of the same N_S (R172). -/
  | adopt {u : State} (h : Course s u) (r : ConfigRecord) (hdue : u.activationDue = true) (hjob : u.job = none)
      (hvalid : u.staging.valid = true → r.valid = true) (hslots : r.nSlots = u.nSlots) :
      Course s { u with active := some r, staging := r, activationDue := false }
  /-- The staged record becomes active, and the journal is dropped (R172, R173). -/
  | adoptEmpty {u : State} (h : Course s u) (r : ConfigRecord) (hdue : u.activationDue = true) (hjob : u.job = none)
      (hvalid : u.staging.valid = true → r.valid = true) :
      Course s ({ u with active := some r, staging := r, activationDue := false } : State).emptyJournal
  /-- The staged record becomes active, and the journal is formatted (R172, R173). -/
  | adoptFormat {u : State} (h : Course s u) (r : ConfigRecord) (op : RowOp) (c : Copy) (epoch : Word)
      (hdue : u.activationDue = true) (hjob : u.job = none) (hreset : u.inReset = false)
      (hvalid : u.staging.valid = true → r.valid = true) :
      Course s (({ u with active := some r, staging := r, activationDue := false, journal := .formatting } :
        State).emptyJournal.runMaint (.formatAnchor c epoch) op)
  /-- The load ends without a scan to follow (R76, R81). -/
  | loaded {u : State} (h : Course s u) (active : Option ConfigRecord) (staging : ConfigRecord) (o : Option LongOp)
      (journal : JournalState) (hmaint : u.onMaint MaintTask.ofLoad)
      (hactive : ∀ r, active = some r → u.active = some r ∨ u.loadedFirst = some r ∨ r.valid = true)
      (hlatch : LatchMove u o journal) :
      Course s { u with active := active, staging := staging, maint := none, longOp := o, journal := journal }
  /-- The load ends, and the scan begins (R76, R78). -/
  | loadedScan {u : State} (h : Course s u) (r : ConfigRecord) (o : LongOp) (c : Copy) (op : RowOp)
      (hmaint : u.onMaint MaintTask.ofLoad) (hvalid : u.loadedFirst = some r ∨ r.valid = true) (hslots : r.nSlots ≠ 0#16)
      (ho : o.identity = (.rollback, .start, .executing)) :
      Course s (({ u with active := some r, staging := r, longOp := some o, journal := .scanning } :
        State).runMaint (.anchorRead c) op)
  /-- The part leaves reset, and the load begins (R75, R164). -/
  | start {u : State} (h : Course s u) (c : Copy) (i : Nat) (rows : List RowData) (op : RowOp)
      (hreset : u.inReset = true) :
      Course s (({ u with inReset := false } : State).runMaint (.loadRow c i rows none) op)
  /-- The tables become empty (R26, R67). -/
  | empty {u : State} (h : Course s u) (hworks : u.onMaint MaintTask.ofJournal ∨ u.journal.executing = true) :
      Course s u.emptyJournal
  /-- The tables are built from the slots the scan has accepted (R79). -/
  | build {u : State} (h : Course s u) {k : Nat} {headers hs : List SlotHeader} {accepted es : List SlotEntry}
      (hmaint : u.maint = some (.scanHeader k headers accepted)) (htaken : ScanTaken headers accepted hs es) :
      Course s (u.buildJournal hs es)
  /-- The scan has stopped, and leaves the mark of R80. -/
  | mark {u : State} (h : Course s u) : Course s u.setRecoveryMark
  /-- The rollback of the start's recovery is entered with that mark (R80). -/
  | roll {u : State} (h : Course s u) (k : Nat) (headers : List SlotHeader) (accepted : List SlotEntry)
      (hmaint : u.maint = some (.scanHeader k headers accepted)) (hmark : u.recoveryMark = some u.nSlots.toNat) :
      Course s { u with journal := .rollingBack, stack := [] }
  /-- A slot has been restored, and the next step of the rollback begins (R52, R56). -/
  | drop {u : State} (h : Course s u) (task : MaintTask) (op : RowOp) (hrestoring : u.restoring = true)
      (htask : task.plain = true
        ∨ (∃ j, task = .restoreImage j) ∧ u.dropRecord.restoreFloor < u.dropRecord.tail) :
      Course s (u.dropRecord.runMaint task op)
  /-- The last slot of an UNDO has been restored (R54). -/
  | dropClose {u : State} (h : Course s u) (recoveryMark : Option Nat) (hrestoring : u.restoring = true) :
      Course s (u.dropRecord.closed .opened recoveryMark u.stack)

/-! ## What the conditions of the moves rest on -/

theorem State.onMaint_iff (u : State) (p : MaintTask → Bool) : u.onMaint p ↔ (u.maint.map p).getD false = true := by
  unfold State.onMaint
  cases u.maint <;> simp

theorem State.closable_of_view {u t : State} (h : t.view = u.view) (hu : u.closable) : t.closable := by
  unfold State.closable at hu ⊢
  rw [State.view_maint h, State.view_activationDue h]
  obtain hmaint | hdue | ⟨o, ho, hcase⟩ := hu
  · exact .inl hmaint
  · exact .inr (.inl hdue)
  · have hop := State.view_operation h
    rw [ho] at hop
    obtain ⟨o', ho', hid⟩ := Option.map_eq_some_iff.mp hop
    simp only [LongOp.identity, Prod.mk.injEq] at hid
    obtain ⟨hkind, _, hphase⟩ := hid
    exact .inr (.inr ⟨o', ho', by rwa [hkind, hphase]⟩)

theorem State.journalWorks_of_view {u t : State} (h : t.view = u.view) (hu : u.journalWorks) : t.journalWorks := by
  obtain ⟨task, hmaint, hof⟩ | ⟨hreset, hexecuting, hclosable⟩ := hu
  · exact .inl ⟨task, by rw [State.view_maint h, hmaint], hof⟩
  · exact .inr ⟨by rw [State.view_inReset h, hreset], by rw [State.view_journal h, hexecuting],
      State.closable_of_view h hclosable⟩

theorem State.closable_of_maint {u : State} {task : MaintTask} (h : u.maint = some task) : u.closable :=
  .inl (by simp [h])

theorem State.journalWorks_of_maint {u : State} {task : MaintTask} (h : u.maint = some task)
    (htask : task.ofJournal = true) : u.journalWorks :=
  .inl ⟨task, h, htask⟩

/-- The Journal Unit's work can end. -/
theorem State.journalWorks.closable {u : State} (h : u.journalWorks) : u.closable := by
  obtain ⟨task, hmaint, _⟩ | ⟨_, _, hclosable⟩ := h
  · exact State.closable_of_maint hmaint
  · exact hclosable

theorem State.restoring_iff (u : State) :
    u.restoring = true ↔ ∃ j, u.maint = some (.restoreImage j) ∨ u.maint = some (.restoreTarget j) := by
  unfold State.restoring
  cases hm : u.maint with
  | none => simp
  | some task => cases task <;> simp [MaintTask.ofRestore]

theorem State.journalWorks_of_restoring {u : State} (h : u.restoring = true) : u.journalWorks := by
  obtain ⟨j, hj | hj⟩ := (State.restoring_iff u).mp h
  · exact State.journalWorks_of_maint hj rfl
  · exact State.journalWorks_of_maint hj rfl

/-! ## The shared operations -/

section
variable {s u : State}

/-- A change outside what the course speaks of. -/
theorem Course.same {t : State} (h : Course s u) (hview : t.view = u.view := by rfl) : Course s t := h.quiet hview

theorem State.setAnchor_view (u : State) (c : Copy) (r : AnchorRecord) : (u.setAnchor c r).view = u.view := by
  cases c <;> rfl

theorem State.file_view (u : State) (f : FaultRecord) : (u.file f).view = u.view := by
  simp [State.view, State.frontOps, State.portIdle]

theorem State.fileTogether_view (u : State) (f g : FaultRecord) : (u.fileTogether f g).view = u.view := by
  simp [State.view, State.frontOps, State.portIdle]

theorem State.acceptHeldWrite_view (u : State) : u.acceptHeldWrite.view = u.view := by
  simp [State.view, State.frontOps, State.portIdle]

theorem State.takeInHeld_view (u : State) : u.takeInHeld.view = u.view := by
  simp [State.view, State.frontOps, State.portIdle]

theorem State.present_view (u : State) (q : Request) : (u.present q).view = u.view := by
  simp [State.view, State.frontOps, State.portIdle]

theorem State.retireHead_view (u : State) (okay : Bool) : (u.retireHead okay).view = u.view := by
  simp [State.view, State.frontOps, State.portIdle]

theorem State.decideIfDue_view (u : State) : u.decideIfDue.view = u.view := by
  simp [State.view, State.frontOps, State.portIdle]

theorem State.dropIfWaiting_view (u : State) : u.dropIfWaiting.view = u.view := by
  simp [State.view, State.frontOps, State.portIdle]

theorem State.enterRunning_view (u : State) : u.enterRunning.view = u.view := by
  simp [State.view, State.frontOps, State.portIdle]

theorem State.leaveUnconfigured_view (u : State) : u.leaveUnconfigured.view = u.view := by
  simp [State.view, State.frontOps, State.portIdle]

theorem State.holdExpires_view (u : State) : u.holdExpires.view = u.view := by
  simp [State.view, State.frontOps, State.portIdle]

theorem State.markHead_view (u : State) (f : Entry → Entry) : (u.markHead f).view = u.view := by
  simp [State.view, State.frontOps, State.portIdle]

/-- A count of the long operation is none of what the course speaks of. -/
theorem State.count_view (u : State) (f : LongOp → LongOp) (hf : ∀ o, (f o).identity = o.identity) :
    (u.count f).view = u.view := by
  have hop : (u.longOp.map f).map LongOp.identity = u.longOp.map LongOp.identity := by
    simp [Function.comp_def, hf]
  simp only [State.view, State.count, hop]
  rfl

theorem State.carry_view (u : State) : u.carry.view = u.view := by
  unfold State.carry
  split
  · rfl
  · exact State.count_view _ _ fun _ => rfl

theorem State.discard_view (u : State) (p : Entry → Bool) : (u.discard p).view = u.view := by
  unfold State.discard
  dsimp only
  refine (State.acceptHeldWrite_view _).trans ((State.count_view _ _ ?_).trans ?_)
  · exact fun _ => rfl
  · split <;> rfl

end

end Sys2Proof.Machine

/-! SUPPORT. That every operation of the model on MAINT, of a long operation and of the start is a chain of moves. -/
namespace Sys2Proof.Machine

set_option Elab.async false

/-! ## Taking and ending a long operation -/

section
variable {s u : State}

theorem State.startOperation_view (u : State) (kind : OpKind) (origin : Origin) (skip : Bool) :
    (u.startOperation kind origin skip).view
      = ({ u with longOp := some (.created kind origin skip), journal := u.journalTaken } : State).view := by
  unfold State.startOperation State.journalTaken
  dsimp only
  split <;> rfl

theorem State.takeCommit_view (u : State) (origin : Origin) :
    (u.takeCommit origin).view
      = ({ u with longOp := some (.created .commit origin false), journal := u.journalTaken } : State).view := by
  unfold State.takeCommit
  dsimp only
  split
  · exact (State.carry_view _).trans (u.startOperation_view _ _ _)
  · exact u.startOperation_view _ _ _

theorem Course.startOperation (h : Course s u) (kind : OpKind) (origin : Origin) (skip : Bool)
    (hnone : u.longOp = none) (horigin : origin ≠ .start) : Course s (u.startOperation kind origin skip) :=
  (h.take (.created kind origin skip) hnone horigin rfl).quiet (u.startOperation_view _ _ _)

theorem Course.takeCommit (h : Course s u) (origin : Origin) (hnone : u.longOp = none) (horigin : origin ≠ .start) :
    Course s (u.takeCommit origin) :=
  (h.take (.created .commit origin false) hnone horigin rfl).quiet (u.takeCommit_view _)

theorem Course.settleLatch (h : Course s u) (hnone : u.longOp = none) : Course s u.settleLatch := by
  unfold State.settleLatch
  split
  · dsimp only
    split
    · exact Course.takeCommit h.same .line hnone (by simp)
    · exact Course.quiet h.same (State.file_view _ _)
  · exact h

theorem Course.endStartRunning (h : Course s u) (hnone : u.longOp = none) : Course s u.endStartRunning :=
  (Course.settleLatch (u := { u with operating := .running }) h.same hnone).quiet (State.enterRunning_view _)

/-- The end of an operation is a move from a state that it can be closed in. -/
theorem Course.endOperation_of_closed {v : State} (journal : JournalState) (result : OpResult) (reason : Option Reason)
    (fault : Option FaultKind) (hop : v.longOp ≠ none)
    (hclosed : ∀ recoveryMark, Course s (v.closed journal recoveryMark v.stack)) :
    Course s (v.endOperation journal result reason fault) := by
  unfold State.endOperation
  split
  · next hnone => exact absurd hnone hop
  · dsimp only
    split
    · exact Course.endStartRunning (hclosed none).same rfl
    · exact (Course.settleLatch (hclosed v.recoveryMark).same rfl).quiet (State.leaveUnconfigured_view _)

/-- The end of an operation, from the state that it is executing in: `u` is the state before its phase changed. -/
theorem Course.endExecuting (h : Course s u) (o : LongOp) (journal : JournalState) (stack : List Nat)
    (result : OpResult) (reason : Option Reason) (fault : Option FaultKind) (hclosable : u.closable)
    (hjournal : journal.executing = false ∨ journal = u.journal) (hstack : StackMove u stack) :
    Course s (({ u with longOp := some o, stack := stack } : State).endOperation journal result reason fault) :=
  Course.endOperation_of_closed _ _ _ _ (by simp) fun rm => h.close journal rm stack hclosable hjournal hstack

theorem Course.endOperation (h : Course s u) (journal : JournalState) (result : OpResult) (reason : Option Reason)
    (fault : Option FaultKind) (hclosable : u.closable)
    (hjournal : journal.executing = false ∨ journal = u.journal) :
    Course s (u.endOperation journal result reason fault) := by
  cases hop : u.longOp with
  | none =>
    rw [State.endOperation, hop]
    exact h
  | some o =>
    have hu : ({ u with longOp := some o, stack := u.stack } : State) = u := by rw [← hop]
    have := h.endExecuting o journal u.stack result reason fault hclosable hjournal .same
    rwa [hu] at this

/-- The journal state that a refused operation leaves is OPEN or the one before. -/
theorem State.journalBefore_cases (u : State) : u.journalBefore.executing = false ∨ u.journalBefore = u.journal := by
  unfold State.journalBefore
  split
  · exact .inl rfl
  · exact .inr rfl

theorem Course.refuseOperation (h : Course s u) (reason : Reason) (hclosable : u.closable) :
    Course s (u.refuseOperation reason) :=
  h.endOperation _ _ _ _ hclosable u.journalBefore_cases

theorem State.markUnexamined_view (u : State) : u.markUnexamined.view = u.view := by
  simp [State.view, State.frontOps, State.portIdle]

theorem Course.failOperation (h : Course s u) (journal : JournalState) (kind : FaultKind) (hclosable : u.closable)
    (hjournal : journal.executing = false ∨ journal = u.journal) : Course s (u.failOperation journal kind) :=
  (h.quiet u.markUnexamined_view).endOperation _ _ _ _ (State.closable_of_view u.markUnexamined_view hclosable)
    (by rwa [State.view_journal u.markUnexamined_view])

theorem State.closable_of_waiting {o : LongOp} (hop : u.longOp = some o) (hwaiting : o.phase = .waiting) : u.closable :=
  .inr (.inr ⟨o, hop, .inl hwaiting⟩)

theorem Course.drainAction (h : Course s u) : Course s u.drainAction := by
  unfold State.drainAction
  split
  · exact h
  · next o hop =>
    split
    · next hc =>
      have hclosable : u.closable :=
        State.closable_of_waiting hop (of_decide_eq_true (Bool.and_eq_true_iff.mp hc).1)
      cases o.kind
      case commit => exact h.quiet u.carry_view
      case rollback => exact h.quiet (u.discard_view _)
      case undo =>
        dsimp only
        split
        · exact h.refuseOperation _ hclosable
        · exact h.quiet (u.discard_view _)
      case save | release | apply => exact h.refuseOperation _ hclosable
      case format =>
        dsimp only
        split
        · exact h.refuseOperation _ hclosable
        · exact h
      case resume => exact h
    · exact h

theorem Course.takeOperation (h : Course s u) (kind : OpKind) (origin : Origin) (skip : Bool) (hnone : u.longOp = none)
    (horigin : origin ≠ .start) : Course s (u.takeOperation kind origin skip) := by
  have hstart := h.startOperation kind origin skip hnone horigin
  refine Course.drainAction ?_
  cases kind
  case rollback => exact hstart.quiet (State.discard_view _ _)
  case undo =>
    dsimp only
    split
    · exact hstart
    · exact hstart.quiet (State.discard_view _ _)
  case save | release | commit | resume | format | apply => exact hstart

theorem Course.spaceWaitEntered (h : Course s u) : Course s u.spaceWaitEntered := by
  have hcount : Course s { u with freeCount := u.freeCount + 1 } := h.same
  unfold State.spaceWaitEntered
  split
  · dsimp only
    split
    · exact hcount.quiet (State.dropIfWaiting_view _)
    · exact hcount.drainAction.quiet (State.dropIfWaiting_view _)
  · exact h.drainAction.quiet (State.dropIfWaiting_view _)

end

/-! ## The epoch advance -/

section
variable {s u : State}

theorem Course.runPlain (h : Course s u) (task : MaintTask) (op : RowOp) (htask : task.plain = true)
    (hworks : u.journalWorks) : Course s (u.runMaint task op) :=
  h.ask task op (.plain task htask hworks)

theorem State.writeAnchor_view (u : State) (goal : AnchorGoal) (c : Copy) (epoch : Word) (op : RowOp) :
    (u.writeAnchor goal c epoch).view = (u.runMaint (.anchorWrite goal c epoch) op).view :=
  State.runMaint_view (u.setAnchor_view c _) _ _ _

theorem Course.writeAnchor (h : Course s u) (goal : AnchorGoal) (c : Copy) (epoch : Word) (hworks : u.journalWorks) :
    Course s (u.writeAnchor goal c epoch) :=
  (h.runPlain (.anchorWrite goal c epoch) (.read 0) rfl hworks).quiet (u.writeAnchor_view goal c epoch _)

/-- An advance asks for its first row operation (R25, R27). -/
theorem State.startAdvance_view (u : State) :
    ∃ task op, task.plain = true ∧ u.startAdvance.view = (u.runMaint task op).view := by
  unfold State.startAdvance
  split
  · exact ⟨_, _, rfl, rfl⟩
  · exact ⟨_, .read 0, rfl, u.writeAnchor_view _ _ _ _⟩

theorem Course.startAdvance (h : Course s u) (hworks : u.journalWorks) : Course s u.startAdvance := by
  obtain ⟨task, op, htask, hview⟩ := u.startAdvance_view
  exact (h.runPlain task op htask hworks).quiet hview

theorem State.emptyJournal_closable (hclosable : u.closable) : u.emptyJournal.closable := hclosable

theorem Course.advanceSucceeded (h : Course s u) (epoch : Word) (hmaint : u.onMaint MaintTask.ofJournal) :
    Course s (u.advanceSucceeded epoch) :=
  Course.endOperation (h.empty (.inl hmaint)).same _ _ _ _
    (State.emptyJournal_closable (State.journalWorks.closable (.inl hmaint))) (.inl rfl)

theorem Course.journalLost (h : Course s u) (kind : FaultKind) (hmaint : u.onMaint MaintTask.ofJournal) :
    Course s (u.journalLost kind) :=
  (h.empty (.inl hmaint)).failOperation _ _
    (State.emptyJournal_closable (State.journalWorks.closable (.inl hmaint))) (.inl rfl)

/-! ## The restore -/

/-- The next step of a restore: another restore, with a slot left above the floor, the end of an UNDO, or an advance. -/
theorem State.restoreNext_view (u : State) :
    (∃ task op, u.restoreNext.view = (u.runMaint task op).view
        ∧ (task.plain = true ∨ (∃ j, task = .restoreImage j) ∧ u.restoreFloor < u.tail))
      ∨ (u.longOp.map LongOp.kind) = some .undo ∧ u.restoreNext = u.endOperation .opened .done none none := by
  unfold State.restoreNext
  split
  · next hfloor => exact .inl ⟨_, _, rfl, .inr ⟨⟨_, rfl⟩, hfloor⟩⟩
  · split
    · next hundo => exact .inr ⟨hundo, rfl⟩
    · obtain ⟨task, op, htask, hview⟩ := u.startAdvance_view
      exact .inl ⟨task, op, hview, .inl htask⟩

/-- A rollback or an UNDO begins its restores. -/
theorem Course.restoreNext (h : Course s u) (hworks : u.journalWorks)
    (hstack : u.stack = [] ∨ (u.longOp.map LongOp.kind) = some .undo) : Course s u.restoreNext := by
  obtain ⟨task, op, hview, htask | ⟨⟨j, rfl⟩, hfloor⟩⟩ | ⟨_, hend⟩ := u.restoreNext_view
  · exact (h.runPlain task op htask hworks).quiet hview
  · exact (h.ask _ op (.image j hworks hfloor hstack)).quiet hview
  · rw [hend]
    exact h.endOperation _ _ _ _ hworks.closable (.inl rfl)

/-- A slot has been restored or skipped, and the counts of its operation raised. -/
theorem Course.dropAndNext (h : Course s u) (f : LongOp → LongOp) (hf : ∀ o, (f o).identity = o.identity)
    (hrestoring : u.restoring = true) : Course s (u.dropRecord.count f).restoreNext := by
  have hcount := State.count_view u.dropRecord f hf
  have hfloor : (u.dropRecord.count f).restoreFloor = u.dropRecord.restoreFloor := by
    unfold State.restoreFloor State.segmentStart
    rw [State.view_kind hcount, State.view_stack hcount]
  have htail : (u.dropRecord.count f).tail = u.dropRecord.tail := by
    rw [State.tail, State.view_slots hcount, State.tail]
  obtain ⟨task, op, hview, htask⟩ | ⟨hundo, hend⟩ := (u.dropRecord.count f).restoreNext_view
  · rw [hfloor, htail] at htask
    exact (h.drop task op hrestoring htask).quiet (hview.trans (State.runMaint_view hcount _ _ _))
  · rw [hend]
    refine Course.endOperation_of_closed _ _ _ _ (fun hnone => ?_) fun rm => ?_
    · rw [hnone] at hundo
      cases hundo
    · refine (h.dropClose rm hrestoring).quiet ?_
      simp [State.view, State.closed, State.frontOps, State.portIdle, State.count]

theorem Course.restoreStopped (h : Course s u) (j : Nat) (kind : FaultKind) (hclosable : u.closable) :
    Course s (u.restoreStopped j kind) :=
  (h.quiet (u.file_view _)).failOperation _ _ (State.closable_of_view (u.file_view _) hclosable) (.inl rfl)

theorem State.restoring_of_view {t : State} (h : t.view = u.view) (hu : u.restoring = true) : t.restoring = true := by
  rwa [State.restoring, State.view_maint h]

theorem Course.imageRead (h : Course s u) (j : Nat) (image : Row) (hrestoring : u.restoring = true) :
    Course s (u.imageRead j image) := by
  unfold State.imageRead
  split
  · split
    · exact h
    · exact h.ask _ _ (.target j hrestoring)
  · split
    · exact h
    · split
      · exact (h.quiet (u.file_view _)).dropAndNext _ (fun _ => rfl)
          (State.restoring_of_view (u.file_view _) hrestoring)
      · exact h.restoreStopped _ _ (State.journalWorks_of_restoring hrestoring).closable

theorem Course.targetWritten (h : Course s u) (hrestoring : u.restoring = true) : Course s u.targetWritten :=
  h.dropAndNext _ (fun _ => rfl) hrestoring

end

end Sys2Proof.Machine

/-! SUPPORT. The course of a format, of the start's recovery, of the configuration load, of an APPLY and of the commands
that a drain's end executes: the results of MAINT, chained. -/
namespace Sys2Proof.Machine

set_option Elab.async false

section
variable {s u : State}

/-! ## The format -/

theorem Course.formatFailed (h : Course s u) (kind : FaultKind) (hclosable : u.closable) :
    Course s (u.formatFailed kind) :=
  Course.failOperation (u := { u with epoch := none }) h.same _ _ hclosable (.inl rfl)

theorem Course.formatHeaders (h : Course s u) (k : Nat) (greatest : Word) (hworks : u.journalWorks) :
    Course s (u.formatHeaders k greatest) := by
  unfold State.formatHeaders
  split
  · exact h.runPlain _ _ rfl hworks
  · unfold State.formatScanned
    split
    · exact h.runPlain _ _ rfl hworks
    · exact h.writeAnchor _ _ _ hworks

theorem Course.formatAnchorRead (h : Course s u) (c : Copy) (greatest : Word) (hworks : u.journalWorks) :
    Course s (u.formatAnchorRead c greatest) := by
  cases c
  case a => exact h.runPlain _ _ rfl hworks
  case b => exact h.formatHeaders _ _ hworks

/-! ## Results of anchor and wipe writes -/

theorem State.onMaint_of_view {t : State} {p : MaintTask → Bool} (h : t.view = u.view) (hu : u.onMaint p) :
    t.onMaint p := by
  rwa [State.onMaint, State.view_maint h]

theorem Course.anchorConfirmed (h : Course s u) (goal : AnchorGoal) (c : Copy) (epoch : Word)
    (hmaint : u.onMaint MaintTask.ofJournal) : Course s (u.anchorConfirmed goal c epoch) := by
  have hview := u.setAnchor_view c (.valid epoch)
  have hset : Course s (u.setAnchor c (.valid epoch)) := h.quiet hview
  have hset' : (u.setAnchor c (.valid epoch)).onMaint MaintTask.ofJournal := State.onMaint_of_view hview hmaint
  cases goal
  case advance | wipeSecond => exact hset.advanceSucceeded epoch hset'
  case wipeFirst =>
    exact Course.writeAnchor (u := { u.setAnchor c (.valid epoch) with epoch := some epoch }) hset.same _ _ _
      (.inl hset')
  case formatFirst => exact hset.writeAnchor _ _ _ (.inl hset')
  case formatSecond =>
    exact Course.endOperation hset.same _ _ _ _ (State.journalWorks.closable (u := u.setAnchor c (.valid epoch))
      (.inl hset')) (.inl rfl)

theorem Course.advanceFailed (h : Course s u) (notWritten : Bool) (kind : FaultKind) (hclosable : u.closable) :
    Course s (u.advanceFailed notWritten kind) := by
  refine h.failOperation _ _ hclosable (.inl ?_)
  split <;> rfl

theorem Course.anchorFailed (h : Course s u) (goal : AnchorGoal) (c : Copy) (notWritten : Bool) (kind : FaultKind)
    (hmaint : u.onMaint MaintTask.ofJournal) : Course s (u.anchorFailed goal c notWritten kind) := by
  have hview := u.file_view (u.journalFault kind (u.anchorRow c) none)
  have hfiled := State.onMaint_of_view hview hmaint
  cases goal
  case advance => exact (h.quiet hview).advanceFailed _ _ (State.journalWorks.closable (.inl hfiled))
  case wipeFirst | wipeSecond => exact (h.quiet hview).journalLost kind hfiled
  case formatFirst | formatSecond => exact (h.quiet hview).formatFailed kind (State.journalWorks.closable (.inl hfiled))

theorem Course.anchorReadBack (h : Course s u) (goal : AnchorGoal) (c : Copy) (epoch : Word) (x : Row)
    (hmaint : u.onMaint MaintTask.ofJournal) : Course s (u.anchorReadBack goal c epoch x) := by
  unfold State.anchorReadBack
  split
  · exact h.anchorConfirmed _ _ _ hmaint
  · exact h.anchorFailed _ _ _ _ hmaint

theorem Course.wipeWritten (h : Course s u) (k : Nat) (forFormat : Bool) (hworks : u.journalWorks) :
    Course s (u.wipeWritten k forFormat) := by
  unfold State.wipeWritten
  split
  · exact h.runPlain _ _ rfl hworks
  · exact h.writeAnchor _ _ _ hworks

theorem Course.wipeFailed (h : Course s u) (k : Nat) (forFormat : Bool) (kind : FaultKind)
    (hmaint : u.onMaint MaintTask.ofJournal) : Course s (u.wipeFailed k forFormat kind) := by
  have hview := u.file_view (u.journalFault kind (u.headerRow k) (some k))
  have hfiled := State.onMaint_of_view hview hmaint
  cases forFormat
  case false => exact (h.quiet hview).journalLost kind hfiled
  case true => exact (h.quiet hview).formatFailed kind (State.journalWorks.closable (.inl hfiled))

/-! ## The start's recovery -/

theorem Course.endStartQuietly (h : Course s u) (journal : JournalState) (hclosable : u.closable)
    (hjournal : journal.executing = false) : Course s (u.endStartQuietly journal) :=
  Course.endStartRunning (h.close journal u.recoveryMark u.stack hclosable (.inl hjournal) .same).same rfl

theorem Course.startScan (h : Course s u) (epoch : Word) (c : Copy) (hmaint : u.maint = some (.anchorRead c)) :
    Course s (u.startScan epoch) :=
  Course.ask (u := { u with epoch := some epoch }) h.same _ _ (.scan c hmaint)

theorem Course.startScanDegraded (h : Course s u) (degraded : Copy) (epoch : Word) (c : Copy)
    (hmaint : u.maint = some (.anchorRead c)) : Course s ((u.anchorDegraded degraded epoch).startScan epoch) :=
  Course.startScan (h.quiet (u.file_view _)) epoch c ((State.view_maint (u.file_view _)).trans hmaint)

theorem Course.selectAnchor (h : Course s u) (c : Copy) (hmaint : u.maint = some (.anchorRead c)) :
    Course s u.selectAnchor := by
  unfold State.selectAnchor
  split
  · exact h.startScan _ c hmaint
  · exact h.startScanDegraded _ _ c hmaint
  · exact h.startScanDegraded _ _ c hmaint
  · exact h.startScanDegraded _ _ c hmaint
  · exact h.startScanDegraded _ _ c hmaint
  all_goals exact h.endStartQuietly _ (State.closable_of_maint hmaint) rfl

theorem Course.anchorClassified (h : Course s u) (c : Copy) (r : AnchorRecord) (hmaint : u.maint = some (.anchorRead c)) :
    Course s (u.anchorClassified c r) := by
  have hview := u.setAnchor_view c r
  have hset := (State.view_maint hview).trans hmaint
  cases c
  case a => exact (h.quiet hview).ask _ _ (.anchor _ _ hset)
  case b => exact (h.quiet hview).selectAnchor _ hset

/-- The entry that a header continues the journal with has the back-link its slot calls for (R79). -/
theorem State.acceptedEntry_backLink {k : Nat} {last : Option Word} {accepted : List SlotEntry} {r : Row}
    (h : u.headerAccepted k last accepted r = true) :
    (acceptedEntry r).backLink = newestSlot accepted (acceptedEntry r).target := by
  simp only [State.headerAccepted, Bool.and_eq_true] at h
  exact (beq_iff_eq.mp h.2).symm

theorem Course.scanStopped (h : Course s u) {k : Nat} {headers hs : List SlotHeader} {accepted es : List SlotEntry}
    (hmaint : u.maint = some (.scanHeader k headers accepted)) (htaken : ScanTaken headers accepted hs es) :
    Course s (u.scanStopped hs es) := by
  have hbuilt := h.build hmaint htaken
  unfold State.scanStopped
  dsimp only
  split
  · exact Course.endStartQuietly hbuilt.same _ (State.closable_of_maint hmaint) rfl
  · exact Course.restoreNext (Course.same (hbuilt.mark.roll k headers accepted hmaint rfl)) (.inl ⟨_, hmaint, rfl⟩) (.inl rfl)

theorem Course.headerScanned (h : Course s u) {k : Nat} {headers : List SlotHeader} {accepted : List SlotEntry} {r : Row}
    (hmaint : u.maint = some (.scanHeader k headers accepted)) : Course s (u.headerScanned k headers accepted r) := by
  unfold State.headerScanned
  split
  · next haccepted =>
    have hlink := State.acceptedEntry_backLink haccepted
    dsimp only
    split
    · next hk => exact h.ask _ _ (.scanNext k headers accepted _ _ hmaint hlink hk)
    · exact h.scanStopped hmaint (.andLast _ _ hlink)
  · exact h.scanStopped hmaint .these

theorem Course.scanFailed (h : Course s u) {k : Nat} {headers : List SlotHeader} {accepted : List SlotEntry}
    {kind : FaultKind} (hmaint : u.maint = some (.scanHeader k headers accepted)) :
    Course s (u.scanFailed k headers accepted kind) := by
  have hmarked : Course s (u.buildJournal headers accepted).setRecoveryMark := (h.build hmaint .these).mark
  have hfiled := ((u.buildJournal headers accepted).setRecoveryMark).file_view
    ((u.buildJournal headers accepted).setRecoveryMark.journalFault kind (u.headerRow k) (some k))
  exact (hmarked.quiet hfiled).failOperation _ _
    (State.closable_of_view hfiled (State.closable_of_maint (u := (u.buildJournal headers accepted).setRecoveryMark) hmaint))
    (.inl rfl)

/-! ## The configuration load -/

/-- The load ends, and what it latched is settled (R76, R81). -/
theorem Course.loadSettled (h : Course s u) {v : State} (active : Option ConfigRecord) (staging : ConfigRecord)
    (hmaint : u.onMaint MaintTask.ofLoad)
    (hactive : ∀ r, active = some r → u.active = some r ∨ u.loadedFirst = some r ∨ r.valid = true)
    (hv : v.view = ({ u with active := active, staging := staging, maint := none } : State).view) :
    Course s v.settleLatch := by
  have hsame := (h.loaded active staging _ _ hmaint hactive .same).quiet hv
  unfold State.settleLatch
  split
  · dsimp only
    split
    · next hopened =>
      have hopened' : u.journal = .opened := (State.view_journal hv).symm.trans hopened
      refine (h.loaded active staging _ _ hmaint hactive
        (.taken (.created .commit .line false) rfl rfl rfl hopened')).quiet ((State.takeCommit_view _ _).trans ?_)
      simp only [State.view, View.mk.injEq] at hv ⊢
      simp_all [State.journalTaken, State.frontOps, State.portIdle]
    · exact Course.quiet hsame.same (State.file_view _ _)
  · exact hsame

theorem Course.loadEndsRunning (h : Course s u) {v : State} (active : Option ConfigRecord) (staging : ConfigRecord)
    (hmaint : u.onMaint MaintTask.ofLoad)
    (hactive : ∀ r, active = some r → u.active = some r ∨ u.loadedFirst = some r ∨ r.valid = true)
    (hv : v.view = ({ u with active := active, staging := staging, maint := none } : State).view) :
    Course s v.endStartRunning :=
  (h.loadSettled (v := { v with operating := .running }) active staging hmaint hactive hv).quiet
    (State.enterRunning_view _)

theorem Course.endStartUnconfigured (h : Course s u) (hmaint : u.onMaint MaintTask.ofLoad) :
    Course s u.endStartUnconfigured := by
  have hactive : ∀ r, u.active = some r → u.active = some r ∨ u.loadedFirst = some r ∨ r.valid = true :=
    fun _ => .inl
  unfold State.endStartUnconfigured
  dsimp only
  split
  · exact h.loadSettled u.active .zero hmaint hactive rfl
  · have hloaded := h.loaded u.active .zero _ _ hmaint hactive .same
    split
    · exact Course.quiet hloaded.same (State.fileTogether_view _ _ _)
    · exact Course.quiet hloaded.same (State.file_view _ _)

/-- A configuration is made active; what it files and takes in changes nothing else of the course, and then the start ends
or the scan begins (R76, R114). -/
theorem State.install_cases (u : State) (r : ConfigRecord) (from_ : Copy) (degraded : Option Copy) :
    ∃ v : State, v.view = ({ u with active := some r, staging := r, maint := none } : State).view
      ∧ u.install r from_ degraded = if r.nSlots = 0#16 then v.endStartRunning else v.enterScanning := by
  refine ⟨_, ?_, rfl⟩
  dsimp only
  split
  · exact State.takeInHeld_view _
  · split
    · exact State.file_view _ _
    · split
      · exact (State.takeInHeld_view _).trans (State.file_view _ _)
      · exact State.fileTogether_view _ _ _

/-- The record of the start's recovery as the scan begins (R76). -/
def LongOp.recovery : LongOp := { LongOp.created .rollback .start false with phase := .executing }

/-- SCANNING is entered with MAINT at the anchor read, whatever it was at (R76, R78). -/
theorem State.enterScanning_view {v w : State} (r : ConfigRecord)
    (hv : v.view = ({ w with active := some r, staging := r, maint := none } : State).view) :
    v.enterScanning.view
      = (({ w with active := some r, staging := r, longOp := some .recovery, journal := .scanning } : State).runMaint
          (.anchorRead .a) (.read 0)).view := by
  have hentered : ({ v.setJournal .scanning with longOp := some .recovery } : State).view
      = ({ w with active := some r, staging := r, maint := none, longOp := some .recovery, journal := .scanning } :
          State).view := by
    simp only [State.view, View.mk.injEq, State.frontOps, State.portIdle] at hv ⊢
    simp [State.setJournal, hv]
  exact State.runMaint_view hentered (.anchorRead .a) (.read 0) (.read (v.anchorRow .a))

theorem Course.install (h : Course s u) (r : ConfigRecord) (from_ : Copy) (degraded : Option Copy)
    (hmaint : u.onMaint MaintTask.ofLoad) (hr : u.loadedFirst = some r ∨ r.valid = true) :
    Course s (u.install r from_ degraded) := by
  obtain ⟨v, hv, hinstall⟩ := u.install_cases r from_ degraded
  rw [hinstall]
  split
  · exact h.loadEndsRunning (some r) r hmaint (fun _ hs => .inr (Option.some.inj hs ▸ hr)) hv
  · next hslots => exact (h.loadedScan r _ .a _ hmaint hr hslots rfl).quiet (State.enterScanning_view r hv)

theorem Course.selectConfig (h : Course s u) (a b : Option ConfigRecord) (hmaint : u.onMaint MaintTask.ofLoad)
    (ha : ∀ r, a = some r → u.loadedFirst = some r ∨ r.valid = true)
    (hb : ∀ r, b = some r → u.loadedFirst = some r ∨ r.valid = true) : Course s (u.selectConfig a b) := by
  unfold State.selectConfig
  split
  · split
    · exact h.install _ _ _ hmaint (hb _ rfl)
    · exact h.install _ _ _ hmaint (ha _ rfl)
  · exact h.install _ _ _ hmaint (ha _ rfl)
  · exact h.install _ _ _ hmaint (hb _ rfl)
  · exact h.endStartUnconfigured hmaint

theorem State.setCopy_view (u : State) (c : Copy) (r : CopyRecord) : (u.setCopy c r).view = u.view := by
  cases c <;> rfl

theorem State.loadedFirst_of_view {t : State} (h : t.view = u.view) : t.loadedFirst = u.loadedFirst := by
  rw [State.loadedFirst, State.loadedFirst, State.view_maint h]

theorem Course.copyClassified (h : Course s u) (c : Copy) (record first : Option ConfigRecord)
    (hmaint : u.onMaint MaintTask.ofLoad) (hrecord : ∀ r, record = some r → r.valid = true)
    (hfirst : ∀ r, first = some r → u.loadedFirst = some r) : Course s (u.copyClassified c record first) := by
  have hview := u.setCopy_view c (copyRecordOf record)
  have hset := State.onMaint_of_view hview hmaint
  cases c
  case a => exact (h.quiet hview).ask _ _ (.load _ _ _ _ hset fun r hr => .inr (hrecord r hr))
  case b =>
    refine (h.quiet hview).selectConfig _ _ hset (fun r hr => .inl ?_) fun r hr => .inr (hrecord r hr)
    exact (State.loadedFirst_of_view hview).trans (hfirst r hr)

/-- A copy that is classified VALID holds a record that passes validation (R162). -/
theorem classifyCopy_valid {rows : List RowData} {r : ConfigRecord} (h : classifyCopy rows = some r) :
    r.valid = true := by
  unfold classifyCopy at h
  split at h
  · next hc =>
    obtain rfl := Option.some.inj h
    simp_all
  · cases h

theorem Course.loadRowRead (h : Course s u) (c : Copy) (i : Nat) (rows : List RowData) (first : Option ConfigRecord)
    (r : Row) (hmaint : u.maint = some (.loadRow c i rows first)) : Course s (u.loadRowRead c i rows first r) := by
  have hload : u.onMaint MaintTask.ofLoad := ⟨_, hmaint, rfl⟩
  have hfirst : u.loadedFirst = first := by rw [State.loadedFirst, hmaint]
  unfold State.loadRowRead
  split
  · split
    · exact h.ask _ _ (.load _ _ _ _ hload fun r hr => .inl (hfirst.trans hr))
    · exact h.copyClassified _ _ _ hload (fun r => classifyCopy_valid) fun r hr => hfirst.trans hr
  · exact h.copyClassified _ _ _ hload (fun r hr => by cases hr) fun r hr => hfirst.trans hr

theorem Course.loadRowFailed (h : Course s u) (c : Copy) (i : Nat) (rows : List RowData) (first : Option ConfigRecord)
    (kind : FaultKind) (hmaint : u.maint = some (.loadRow c i rows first)) :
    Course s (u.loadRowFailed c i first kind) := by
  have hview := u.file_view (configFault kind (c.firstRow + i) 0#32)
  have hfirst : u.loadedFirst = first := by rw [State.loadedFirst, hmaint]
  exact (h.quiet hview).copyClassified _ _ _ (State.onMaint_of_view hview ⟨_, hmaint, rfl⟩) (fun r hr => by cases hr)
    fun r hr => (State.loadedFirst_of_view hview).trans (hfirst.trans hr)

/-! ## APPLY -/

theorem Course.askCopy (h : Course s u) (task : MaintTask) (op : RowOp) (htask : task.ofCopyWrite = true)
    (hmaint : u.onMaint MaintTask.ofCopyWrite) : Course s (u.runMaint task op) :=
  h.ask task op (.copy task htask hmaint)

theorem State.startCopyWrite_view (u : State) (c : Copy) (op : RowOp) :
    (u.startCopyWrite c).view = (u.runMaint (.copyClear c) op).view :=
  State.runMaint_view (u.setCopy_view c _) _ _ _

theorem Course.startCopyWrite (h : Course s u) (c : Copy) (hmaint : u.onMaint MaintTask.ofCopyWrite) :
    Course s (u.startCopyWrite c) :=
  (h.askCopy (.copyClear c) (.read 0) rfl hmaint).quiet (u.startCopyWrite_view c _)

theorem Course.applyFailed (h : Course s u) (row : Nat) (kind : FaultKind) (hclosable : u.closable) :
    Course s (u.applyFailed row kind) := by
  have hview := u.file_view (configFault kind row u.epochOrZero)
  refine (h.quiet hview).failOperation _ _ (State.closable_of_view hview hclosable) ?_
  rw [State.view_journal hview]
  exact u.journalBefore_cases

theorem Course.copyReadBack (h : Course s u) (c : Copy) (rows : List Row)
    (hmaint : u.onMaint MaintTask.ofCopyWrite) : Course s (u.copyReadBack c rows) := by
  have hview := u.setCopy_view c (.valid u.applyGeneration)
  have hset := State.onMaint_of_view hview hmaint
  unfold State.copyReadBack
  split
  · dsimp only
    split
    · exact (h.quiet hview).startCopyWrite _ hset
    · exact (h.quiet hview).due hset
  · obtain ⟨task, htask, _⟩ := hmaint
    exact h.applyFailed _ _ (State.closable_of_maint htask)

/-! ## Results of MAINT -/

/-- A result on MAINT is a chain of moves, whatever its row operation is for (R148). -/
theorem Course.deliverMaint (h : Course s u) (d : Delivery) : Course s (u.deliverMaint d) := by
  have hjournal : ∀ {task}, u.maint = some task → task.ofJournal = true → u.onMaint MaintTask.ofJournal :=
    fun hm ht => ⟨_, hm, ht⟩
  have hcopy : ∀ {task}, u.maint = some task → task.ofCopyWrite = true → u.onMaint MaintTask.ofCopyWrite :=
    fun hm ht => ⟨_, hm, ht⟩
  have hrestore : ∀ {task}, u.maint = some task → task.ofRestore = true → u.restoring = true :=
    fun hm ht => by simp [State.restoring, hm, ht]
  unfold State.deliverMaint
  split
  · exact h
  · next hm => exact h.loadRowRead _ _ _ _ _ hm
  · next hm => exact h.loadRowFailed _ _ _ _ _ hm
  · next hm => exact h.anchorClassified _ _ hm
  · next hm => exact (h.quiet (u.file_view _)).anchorClassified _ _ ((State.view_maint (u.file_view _)).trans hm)
  · next hm => exact h.headerScanned hm
  · next hm => exact h.scanFailed hm
  · next hm => exact h.imageRead _ _ (hrestore hm rfl)
  · next hm => exact h.restoreStopped _ _ (State.closable_of_maint hm)
  · next hm => exact h.targetWritten (hrestore hm rfl)
  · next hm => exact h.restoreStopped _ _ (State.closable_of_maint hm)
  · next hm => exact h.wipeWritten _ _ (.inl (hjournal hm rfl))
  · next hm => exact h.wipeFailed _ _ _ (hjournal hm rfl)
  · next hm => exact h.runPlain _ _ rfl (.inl (hjournal hm rfl))
  · next hm => exact h.anchorFailed _ _ _ _ (hjournal hm rfl)
  · next hm => exact h.anchorReadBack _ _ _ _ (hjournal hm rfl)
  · next hm => exact h.anchorFailed _ _ _ _ (hjournal hm rfl)
  · next hm => exact h.formatAnchorRead _ _ (.inl (hjournal hm rfl))
  · next hm =>
    exact (h.quiet (u.file_view _)).formatAnchorRead _ _
      (State.journalWorks_of_view (u.file_view _) (.inl (hjournal hm rfl)))
  · next hm => exact h.formatHeaders _ _ (.inl (hjournal hm rfl))
  · next hm =>
    exact (h.quiet (u.file_view _)).formatFailed _
      (State.closable_of_view (u.file_view _) (State.closable_of_maint hm))
  · next hm => exact h.startCopyWrite _ (hcopy hm rfl)
  · next hm => exact h.applyFailed _ _ (State.closable_of_maint hm)
  · next hm => exact h.askCopy _ _ rfl (hcopy hm rfl)
  · next hm => exact h.applyFailed _ _ (State.closable_of_maint hm)
  · next hm =>
    split
    · exact h.askCopy _ _ rfl (hcopy hm rfl)
    · exact h.askCopy _ _ rfl (hcopy hm rfl)
  · next hm => exact h.applyFailed _ _ (State.closable_of_maint hm)
  · next hm => exact h.askCopy _ _ rfl (hcopy hm rfl)
  · next hm => exact h.applyFailed _ _ (State.closable_of_maint hm)
  · next hm =>
    split
    · exact h.askCopy _ _ rfl (hcopy hm rfl)
    · exact h.copyReadBack _ _ (hcopy hm rfl)
  · next hm => exact h.applyFailed _ _ (State.closable_of_maint hm)

end

end Sys2Proof.Machine

/-! SUPPORT. The course of the commands: what a drain's end executes, the activation, the end of a write job, and every
command that asks nothing of the Row Engine. -/
namespace Sys2Proof.Machine

set_option Elab.async false

/-! ## The end of a drain -/

/-- The long operation `o` executes (R50). -/
def State.begun (u : State) (o : LongOp) : State := { u with longOp := some { o with phase := .executing } }

/-- The drain of the long operation `o` has ended (R50). -/
structure Drained (s u : State) (o : LongOp) : Prop where
  course : Course s u
  op : u.longOp = some o
  waiting : o.phase = .waiting
  outOfReset : u.inReset = false
  noJob : u.journaledJobInProgress = false

/-- An APPLY that is not refused has a staged record that passes validation (R169). -/
theorem State.staging_valid_of_not_refused {u : State} (hrefusal : u.applyRefusal = none) : u.staging.valid = true := by
  unfold State.applyRefusal at hrefusal
  repeat' split at hrefusal
  all_goals simp_all

section
variable {s u : State} {o : LongOp} (h : Drained s u o)
include h

theorem Drained.closable : u.closable := State.closable_of_waiting h.op h.waiting

theorem Drained.ends (journal : JournalState) (stack : List Nat) (result : OpResult) (reason : Option Reason)
    (hjournal : journal.executing = false ∨ journal = u.journal) (hstack : StackMove u stack) :
    Course s (({ u.begun o with stack := stack } : State).endOperation journal result reason none) :=
  h.course.endExecuting { o with phase := .executing } journal stack result reason none h.closable hjournal hstack

theorem Drained.refused (reason : Reason) : Course s ((u.begun o).refuseOperation reason) :=
  h.ends u.journalBefore u.stack _ _ u.journalBefore_cases .same

/-- The operation goes to work in an executing journal state. -/
theorem Drained.enters (journal : JournalState) (stack : List Nat) (hjournal : journal.executing = true)
    (hstack : stack = u.stack ∨ stack = []) :
    Course s ({ u.begun o with journal := journal, stack := stack } : State) :=
  h.course.execute o journal stack h.op h.waiting h.outOfReset h.noJob (.inl hjournal) hstack

/-- There an operation that is no APPLY works on MAINT. -/
theorem Drained.works (journal : JournalState) (stack : List Nat) (hjournal : journal.executing = true)
    (hkind : o.kind ≠ .apply) : ({ u.begun o with journal := journal, stack := stack } : State).journalWorks :=
  .inr ⟨h.outOfReset, hjournal, .inr (.inr ⟨_, rfl, .inr hkind⟩)⟩

theorem Drained.executeSave : Course s (u.begun o).executeSave := by
  unfold State.executeSave
  split
  · next hroom => exact h.ends .opened _ _ _ (.inl rfl) (.pushed h.noJob hroom)
  · exact h.refused _

theorem Drained.executeRelease : Course s (u.begun o).executeRelease := by
  unfold State.executeRelease
  split
  · exact h.refused _
  · next p rest hstack => exact h.ends .opened _ _ _ (.inl rfl) (.popped h.noJob p rest hstack)

theorem Drained.executeUndo (hkind : o.kind = .undo) : Course s (u.begun o).executeUndo := by
  unfold State.executeUndo
  split
  · exact h.refused _
  · have hentered : Course s ((u.begun o).setJournal .undoing) :=
      (h.enters .undoing u.stack rfl (.inl rfl)).same
    exact hentered.restoreNext (h.works .undoing u.stack rfl (by simp [hkind])) (.inr (by simp [State.begun, hkind]))

theorem Drained.enterRollingBack (hkind : o.kind ≠ .apply) : Course s (u.begun o).enterRollingBack :=
  Course.restoreNext (Course.same (h.enters .rollingBack [] rfl (.inr rfl))) (h.works .rollingBack [] rfl hkind)
    (.inl rfl)

theorem Drained.executeRollback (hkind : o.kind = .rollback) : Course s (u.begun o).executeRollback := by
  unfold State.executeRollback
  split
  · exact h.ends .opened [] _ _ (.inl rfl) (.emptied h.noJob)
  · exact h.enterRollingBack (by simp [hkind])

theorem Drained.advances (hkind : o.kind ≠ .apply) : Course s ((u.begun o).setJournal .committing).startAdvance :=
  Course.startAdvance (Course.same (h.enters .committing u.stack rfl (.inl rfl))) (h.works .committing u.stack rfl hkind)

theorem Drained.executeCommit (hkind : o.kind = .commit) : Course s (u.begun o).executeCommit := by
  unfold State.executeCommit
  split
  · exact h.ends .opened [] _ _ (.inl rfl) (.emptied h.noJob)
  · exact h.advances (by simp [hkind])

/-- The operation executes, and the journal stays in the state it is in. -/
theorem Drained.stays : Course s (u.begun o) :=
  h.course.execute o u.journal u.stack h.op h.waiting h.outOfReset h.noJob (.inr rfl) (.inl rfl)

theorem Drained.executeResume (hkind : o.kind = .resume) : Course s (u.begun o).executeResume := by
  unfold State.executeResume
  split
  · exact h.enterRollingBack (by simp [hkind])
  · exact h.advances (by simp [hkind])
  all_goals exact h.stays

theorem Drained.executeFormat (hkind : o.kind = .format) : Course s (u.begun o).executeFormat := by
  unfold State.executeFormat
  split
  · exact h.refused _
  · have hentered : Course s ((u.begun o).setJournal .formatting) :=
      (h.enters .formatting u.stack rfl (.inl rfl)).same
    exact Course.runPlain (hentered.empty (.inr rfl)) _ _ rfl (h.works .formatting [] rfl (by simp [hkind]))

theorem Drained.executeApply (hkind : o.kind = .apply) : Course s (u.begun o).executeApply := by
  have hbegins : ∀ task op, (u.begun o).applyRefusal = none → task.ofCopyWrite = true →
      Course s ((u.begun o).runMaint task op) := fun task op hrefusal htask =>
    h.course.beginCopy o task op h.op h.waiting hkind h.outOfReset
      (State.staging_valid_of_not_refused (u := u.begun o) hrefusal) htask
  have hcopies : ∀ c, (u.begun o).applyRefusal = none → Course s ((u.begun o).startCopyWrite c) := fun c hrefusal =>
    (hbegins (.copyClear c) (.read 0) hrefusal rfl).quiet (State.startCopyWrite_view _ c _)
  unfold State.executeApply
  split
  · exact h.refused _
  · next hrefusal =>
    split
    · split
      · exact hbegins _ _ hrefusal rfl
      · exact hcopies _ hrefusal
    · exact hcopies _ hrefusal

end

/-- A command DRAIN_END is a chain of moves (R50). -/
theorem Course.execDrainEnd {s t : State} (he : execDrainEnd s = .next t) : Course s t := by
  unfold Machine.execDrainEnd at he
  split at he
  · next hdrain =>
    simp only [State.drainCanEnd, Bool.and_eq_true, Bool.not_eq_true'] at hdrain
    obtain ⟨⟨⟨hreset, hphase⟩, _⟩, hjob⟩ := hdrain
    split at he
    · exact Host.Outcome.next.inj he ▸ .refl
    · next o hop =>
      have h : Drained s s o := ⟨.refl, hop, by simpa [hop] using hphase, hreset, hjob⟩
      dsimp only at he
      split at he
      · exact Host.Outcome.next.inj he ▸ h.executeSave
      · exact Host.Outcome.next.inj he ▸ h.executeRelease
      · next hkind => exact Host.Outcome.next.inj he ▸ h.executeUndo hkind
      · next hkind => exact Host.Outcome.next.inj he ▸ h.executeCommit hkind
      · next hkind => exact Host.Outcome.next.inj he ▸ h.executeRollback hkind
      · next hkind => exact Host.Outcome.next.inj he ▸ h.executeResume hkind
      · next hkind => exact Host.Outcome.next.inj he ▸ h.executeFormat hkind
      · next hkind => exact Host.Outcome.next.inj he ▸ h.executeApply hkind
  · exact Host.Outcome.next.inj he ▸ .refl

/-! ## The activation -/

/-- The record an APPLY writes passes validation when the staged record does (R161, R170). -/
theorem State.applyRecord_valid (u : State) (h : u.staging.valid = true) : u.applyRecord.valid = true := h

/-- A record that leaves the journal area as it is has the active configuration's N_S (R170). -/
theorem State.nSlots_of_unchanged {u : State} {r : ConfigRecord}
    (h : (!((u.active.map fun c => areaDiffers c r).getD true)) = true) : r.nSlots = u.nSlots := by
  cases hactive : u.active with
  | none => simp [hactive] at h
  | some c =>
    simp only [hactive, areaDiffers, Option.map_some, Option.getD_some, Bool.not_eq_true', Bool.or_eq_false_iff,
      bne_eq_false_iff_eq] at h
    simp [State.nSlots, hactive, h.1]

/-- FORMATTING is entered with MAINT at the read of anchor A (R67, R68). -/
theorem State.enterFormatting_view {v w : State} (hv : v.view = w.view) :
    v.enterFormatting.view
      = (({ w with journal := .formatting } : State).emptyJournal.runMaint (.formatAnchor .a v.epochOrZero)
          (.read 0)).view := by
  have hentered : (v.setJournal .formatting).emptyJournal.view
      = ({ w with journal := .formatting } : State).emptyJournal.view := by
    simp only [State.view, View.mk.injEq, State.frontOps, State.portIdle] at hv ⊢
    simp [State.setJournal, State.emptyJournal, hv]
  exact State.runMaint_view hentered _ _ _

theorem Course.activate {s u : State} (h : Course s u) (hreset : u.inReset = false) (hdue : u.activationDue = true)
    (hjob : u.job = none) : Course s u.activate := by
  have hvalid := u.applyRecord_valid
  unfold State.activate
  dsimp only
  unfold State.applyJournalStep
  split
  · exact Course.endOperation (Course.same (h.adoptEmpty u.applyRecord hdue hjob hvalid)) _ _ _ _ (.inr (.inl rfl))
      (.inl rfl)
  · split
    · next hc =>
      have hslots := State.nSlots_of_unchanged (Bool.and_eq_true_iff.mp hc).2
      exact Course.endOperation (Course.same (h.adopt u.applyRecord hdue hjob hvalid hslots)) _ _ _ _ (.inr (.inl rfl))
        (.inl rfl)
    · exact (h.adoptFormat u.applyRecord (.read 0) .a u.epochOrZero hdue hjob hreset hvalid).quiet
        (State.enterFormatting_view (w := { u with
          active := some u.applyRecord, staging := u.applyRecord, activationDue := false }) rfl)

/-! ## Commands that ask nothing of the Row Engine -/

theorem Course.longCommand {s u : State} (h : Course s u) (clocked : Nat) (kind : OpKind) (skip : Bool) :
    Course s (u.longCommand clocked kind skip) := by
  unfold State.longCommand
  split
  · exact h.same
  · next hidle =>
    have hnone : u.longOp = none := by simp_all
    split
    · exact h.same
    · split
      · exact h.same
      · exact (h.takeOperation kind .link skip hnone (by simp)).same

theorem Course.resumeCommand {s u : State} (h : Course s u) (skip : Byte) : Course s (u.resumeCommand skip) := by
  unfold State.resumeCommand
  split
  · exact h.longCommand _ _ _
  · split
    · exact h.longCommand _ _ _
    · exact h.same

theorem Course.checkpointRequest {s u : State} (h : Course s u) : Course s u.checkpointRequest := by
  unfold State.checkpointRequest
  split
  · exact h.same
  · exact h.quiet (u.file_view _)
  all_goals
    split
    · exact h.same
    · next hidle =>
      split
      · exact h.takeOperation _ _ _ (by simpa using hidle) (by simp)
      · exact h.quiet (u.file_view _)

/-- A change of the staging record outside an APPLY (R167). -/
theorem State.not_apply_of_unlocked {u : State} (h : ¬ u.stagingLocked = true) :
    (u.longOp.map LongOp.kind) ≠ some .apply := by
  simp_all [State.stagingLocked]

theorem Course.stageField {s u : State} (h : Course s u) (identifier : Byte) (value : Word) :
    Course s (u.stageField identifier value) := by
  unfold State.stageField
  split
  · exact h.same
  · next hlocked =>
    split
    · exact h.same
    · split
      · exact (h.stage _ (State.not_apply_of_unlocked hlocked)).same
      · exact h.same

theorem Course.copyActive {s u : State} (h : Course s u) : Course s u.copyActive := by
  unfold State.copyActive
  split
  · exact h.same
  · next hlocked =>
    split
    · exact (h.stage _ (State.not_apply_of_unlocked hlocked)).same
    · exact h.same

/-- A command on the link does in reset nothing (R74, R176). -/
theorem Course.onLink {s : State} {f : State → State} (h : Course s (f s)) : Course s (s.onLink f) := by
  unfold State.onLink
  split
  · exact .refl
  · exact h

/-- A meaning that acts only under a condition. -/
theorem Course.ite {s t u : State} {b : Bool} (ht : b = true → Course s t) (hu : Course s u) :
    Course s (if b then t else u) := by
  split
  · next hb => exact ht hb
  · exact hu

/-- The commands that the Row Engine or the memory device answers, and a reset. -/
def ofRowEngine : Instr → Prop
  | .jobTake => True
  | .memoryAttemptDone _ => True
  | .memoryAttemptFail _ => True
  | .attemptTimerExpiry => True
  | .abortAcknowledge _ => True
  | .rstAssert _ => True
  | _ => False

/-- Every other command is a chain of moves. -/
theorem exec_course {c : Instr} {s t : State} (he : exec c s = .next t) (hc : ¬ ofRowEngine c) : Course s t := by
  cases c
  case jobTake | memoryAttemptDone | memoryAttemptFail | attemptTimerExpiry | abortAcknowledge | rstAssert =>
    exact absurd trivial hc
  case drainEnd => exact Course.execDrainEnd he
  all_goals obtain rfl := Host.Outcome.next.inj he
  case frontReadRequest | frontWriteRequest => exact Course.refl.quiet (State.present_view _ _)
  case heldWriteAccept => exact Course.refl.quiet (State.acceptHeldWrite_view _)
  case holdTimerExpiry => exact Course.refl.quiet (State.holdExpires_view _)
  case applyActivation =>
    refine .ite (fun hb => ?_) .refl
    simp only [Bool.and_eq_true, Bool.not_eq_true', Option.isNone_iff_eq_none] at hb
    obtain ⟨⟨hreset, hdue⟩, hjob⟩ := hb
    exact Course.refl.activate hreset hdue hjob
  case freezeDeferredDecision => exact Course.refl.quiet (State.decideIfDue_view _)
  case quiescedEntry => exact .ite (fun _ => Course.refl.same) .refl
  case ckptEdge => exact .ite (fun _ => .refl) (Course.checkpointRequest Course.refl.same)
  case pfwAssert => exact .ite (fun _ => Course.refl.quiet (State.dropIfWaiting_view _)) Course.refl.same
  case pfwDeassert => exact .ite (fun _ => Course.refl.quiet (State.takeInHeld_view _)) Course.refl.same
  case start ckptHigh =>
    refine .ite (fun hreset => ?_) .refl
    exact (Course.refl.start .a 0 [] (.read (Copy.a.firstRow + 0)) hreset).quiet (State.runMaint_view
      (u := { s with inReset := false }) (v := { s with inReset := false, ckptHigh := ckptHigh }) rfl _ _ _)
  case faultPop => exact .onLink (Course.refl.quiet (by simp [State.view, State.frontOps, State.portIdle]))
  case freeze region => exact .onLink (Course.refl.quiet (by simp [State.view, State.frontOps, State.portIdle]))
  case resume skip => exact .onLink (Course.refl.resumeCommand skip)
  case save | release | undo | commit | rollback | format | apply => exact .onLink (Course.refl.longCommand _ _ _)
  case cfgStage identifier value => exact .onLink (Course.refl.stageField identifier value)
  case cfgCopy => exact .onLink Course.refl.copyActive
  case frameError | unknownCommand => exact .onLink (.ite (fun _ => .refl) Course.refl.same)
  case responseRead | status | ident | completion | cfgRead | alertMask =>
    exact .onLink (Course.refl.quiet (by simp [State.view, State.frontOps, State.portIdle]))

end Sys2Proof.Machine

/-! SUPPORT. The moves of the Row Engine: what the job in progress, or a job that is taken, makes of the state when its
row operation ends; and with the course of the commands, what a step does to all that the laws tie together. -/
namespace Sys2Proof.Machine

set_option Elab.async false

/-! ## The work of a job -/

/-- What of a row record its read does not change. -/
def JobRow.work (r : JobRow) : Nat × RowClass × Bool := (r.row, r.cls, r.needsRecord)

/-- What of a job its reads do not change. -/
def Job.work (j : Job) : Request × RegionMode × List (Nat × RowClass × Bool) :=
  (j.request, j.mode, j.rows.map JobRow.work)

theorem Job.withResult_work (j : Job) (i : Nat) (result : RowRead) : (j.withResult i result).work = j.work := by
  have hrows : (j.rows.modify i fun r => { r with result := some result }).map JobRow.work = j.rows.map JobRow.work := by
    apply List.ext_getElem?
    intro m
    by_cases hm : i = m
    · subst hm
      cases hr : j.rows[i]? <;> simp [hr, JobRow.work]
    · simp [hm]
  simp only [Job.work, Job.withResult, hrows]

/-- A write job of a JOURNALED region. -/
def Job.journaledWrite (j : Job) : Bool := !j.request.isRead && j.mode == .journaled

theorem State.journaledWriteJob_eq (u : State) :
    u.journaledWriteJob = if (u.job.map Job.journaledWrite).getD false then u.job else none := by
  unfold State.journaledWriteJob
  cases hj : u.job with
  | none => rfl
  | some j => rfl

theorem State.journaledWriteJob_eq_some_iff (u : State) (j : Job) :
    u.journaledWriteJob = some j ↔ u.job = some j ∧ j.journaledWrite = true := by
  rw [State.journaledWriteJob_eq]
  cases hj : u.job with
  | none => simp
  | some j' =>
    simp only [Option.map_some, Option.getD_some]
    split <;> aesop

theorem State.journaledWriteJob_eq_none_iff (u : State) :
    u.journaledWriteJob = none ↔ ∀ j, u.job = some j → j.journaledWrite = false := by
  rw [State.journaledWriteJob_eq]
  cases hj : u.job with
  | none => simp
  | some j' => simp

theorem Job.journaledWrite_of_work {j k : Job} (h : j.work = k.work) : j.journaledWrite = k.journaledWrite := by
  simp only [Job.work, Prod.mk.injEq] at h
  obtain ⟨hrequest, hmode, _⟩ := h
  rw [Job.journaledWrite, Job.journaledWrite, hrequest, hmode]

/-- Jobs of one work have row records of one work. -/
theorem Job.row_of_work {j k : Job} (h : j.work = k.work) {i : Nat} {r : JobRow} (hr : j.rows[i]? = some r) :
    ∃ q, k.rows[i]? = some q ∧ q.work = r.work := by
  simp only [Job.work, Prod.mk.injEq] at h
  obtain ⟨_, _, hrows⟩ := h
  have hget := congrArg (·[i]?) hrows
  simp only [List.getElem?_map, hr, Option.map_some] at hget
  obtain ⟨q, hq, hwork⟩ := Option.map_eq_some_iff.mp hget.symm
  exact ⟨q, hq, hwork⟩

/-! ## Taking a job -/

/-- What the taking of a job checks (R103, R132, R134). -/
structure TakenFit (u : State) (j : Job) : Prop where
  records : ∀ r ∈ j.rows, r.needsRecord = true → j.journaledWrite = true
  apart : j.journaledWrite = true → u.journal.executing = false
  configured : j.journaledWrite = true → u.active ≠ none
  unreserved : j.journaledWrite = true → ∀ r ∈ j.rows, u.reservedRow r.row = false
  segment : j.journaledWrite = true → ∀ r ∈ j.rows, r.touched = true → r.needsRecord = false →
    u.needsRecord r.row = false

/-- The job that reads: the one in progress, after a read, or one that is being taken. -/
inductive Reads (u : State) (j : Job) : Prop
  | current (k : Job) (i : Nat) (hjob : u.job = some k) (hphase : k.phase = .reading i) (hwork : j.work = k.work)
  | taken (hnone : u.job = none) (hreset : u.inReset = false) (hfit : TakenFit u j)

/-- The job `j` is in progress, and asks for a row operation on FRONT (R148). -/
structure Asks (u : State) (j : Job) (op : RowOp) (t : State) : Prop where
  view : t.view = ({ u with job := some j, port := t.port, waitFront := t.waitFront } : State).view
  ops : u.frontOps = [] → t.frontOps = [op]

/-- What the Row Engine makes of a state when a row operation of FRONT has ended, or a job is taken. -/
inductive JobMove (u : State) : State → Prop
  /-- Nothing that the laws speak of changes. -/
  | stays {t : State} (hview : t.view = u.view) : JobMove u t
  /-- A row is read (R136, R143). -/
  | reads {t : State} (j : Job) (i : Nat) (hreads : Reads u j)
      (hasks : Asks u { j with phase := .reading i } (.read (j.rowNumber i)) t) : JobMove u t
  /-- The space is granted, and the first append begins (R19, R22). -/
  | appends {t : State} (j : Job) (i : Nat) (sequence : Word) (step : AppendStep) (content : Row) (hreads : Reads u j)
      (hfirst : nextRow JobRow.needsRecord j.rows 0 = some i)
      (hroom : u.tail + (j.rows.filter JobRow.needsRecord).length ≤ u.nSlots.toNat)
      (hasks : Asks u { j with phase := .appending i u.tail sequence step }
        (.write (if step = .imageWrite then u.imageRow u.tail else u.headerRow u.tail) content) t) : JobMove u t
  /-- The append goes on (R22). -/
  | appendsOn {t : State} (j : Job) (i slot : Nat) (sequence : Word) (former step : AppendStep) (content : Row)
      (hjob : u.job = some j) (hphase : j.phase = .appending i slot sequence former)
      (hasks : Asks u { j with phase := .appending i slot sequence step }
        (.write (if step = .imageWrite then u.imageRow slot else u.headerRow slot) content) t) : JobMove u t
  /-- A record stands, and the next append begins (R22). -/
  | appendsNext {t : State} (j : Job) (i k slot : Nat) (former sequence : Word) (last step : AppendStep) (content : Row)
      (side : Half) (header : SlotHeader) (w : State) (hw : w = u.addRecord (j.rowNumber i) side header)
      (hjob : u.job = some j) (hphase : j.phase = .appending i slot former last)
      (hnext : nextRow JobRow.needsRecord j.rows (i + 1) = some k)
      (hasks : Asks w { j with phase := .appending k w.tail sequence step }
        (.write (if step = .imageWrite then w.imageRow w.tail else w.headerRow w.tail) content) t) : JobMove u t
  /-- Every record stands, and the first target is written (R22, R142). -/
  | writesRecorded {t : State} (j : Job) (i k slot : Nat) (former : Word) (last : AppendStep) (content : Row)
      (side : Half) (header : SlotHeader) (hjob : u.job = some j) (hphase : j.phase = .appending i slot former last)
      (hlast : nextRow JobRow.needsRecord j.rows (i + 1) = none) (htouched : nextRow JobRow.touched j.rows 0 = some k)
      (hasks : Asks (u.addRecord (j.rowNumber i) side header) { j with phase := .writing k }
        (.write (j.rowNumber k) content) t) : JobMove u t
  /-- No record is needed, and the first target is written (R137, R142). -/
  | writes {t : State} (j : Job) (k : Nat) (content : Row) (hreads : Reads u j)
      (hnone : nextRow JobRow.needsRecord j.rows 0 = none) (htouched : nextRow JobRow.touched j.rows 0 = some k)
      (hasks : Asks u { j with phase := .writing k } (.write (j.rowNumber k) content) t) : JobMove u t
  /-- The next target is written (R142). -/
  | writesOn {t : State} (j : Job) (i k : Nat) (content : Row) (hjob : u.job = some j) (hphase : j.phase = .writing i)
      (hnext : nextRow JobRow.touched j.rows (i + 1) = some k)
      (hasks : Asks u { j with phase := .writing k } (.write (j.rowNumber k) content) t) : JobMove u t
  /-- The job ends, or is parked (R138, R144). -/
  | ends {t : State} (h : Course { u with job := none } t) : JobMove u t
  /-- A record stands, and the job ends. -/
  | endsRecorded {t : State} (j : Job) (i slot : Nat) (former : Word) (last : AppendStep) (side : Half)
      (header : SlotHeader) (hjob : u.job = some j) (hphase : j.phase = .appending i slot former last)
      (h : Course { u.addRecord (j.rowNumber i) side header with job := none } t) : JobMove u t

/-! ## The operations of the Row Engine -/

section
variable {u : State}

/-- A request of FRONT is all that FRONT carries, when it carried none (R156). -/
theorem State.requestPort_front_frontOps (u : State) (op : RowOp) (h : u.frontOps = []) :
    (u.requestPort .front op).frontOps = [op] := by
  unfold State.frontOps at h
  cases hp : u.port with
  | idle =>
    rw [hp] at h
    simp only [List.nil_append, Option.toList_eq_nil_iff] at h
    unfold State.requestPort
    rw [hp]
    dsimp only
    split
    · simp [State.frontOps, State.grant, h]
    · simp [State.frontOps, State.setWaiting, hp]
  | inFlight f | aborting f =>
    rw [hp] at h
    simp only [List.append_eq_nil_iff, Option.toList_eq_nil_iff] at h
    simp [State.requestPort, State.frontOps, State.setWaiting, hp, h.1]

/-- What the laws speak of beside the job in progress. -/
def State.restView (u : State) : View := ({ u with job := none } : State).view

theorem State.restView_of_view {v : State} (h : v.view = u.view) : v.restView = u.restView := by
  simp only [State.restView, State.view, View.mk.injEq, State.frontOps, State.portIdle] at h ⊢
  simp [h]

theorem State.view_of_restView {v : State} (h : v.restView = u.restView) (j : Option Job) :
    ({ v with job := j } : State).view = ({ u with job := j } : State).view := by
  simp only [State.restView, State.view, View.mk.injEq, State.frontOps, State.portIdle] at h ⊢
  simp [h]

variable {v : State} (hv : v.restView = u.restView)
include hv

/-- A request of FRONT changes nothing else that the laws speak of. -/
theorem Asks.of_requestPort (j : Job) (op : RowOp) :
    Asks u j op (({ v with job := some j } : State).requestPort .front op) := by
  have h := State.view_of_restView hv (some j)
  constructor
  · simp only [State.view, View.mk.injEq] at h ⊢
    simp [h]
    exact ⟨rfl, rfl⟩
  · intro hops
    exact State.requestPort_front_frontOps _ op ((State.view_frontOps h).trans hops)

theorem State.restView_tail : v.tail = u.tail := congrArg (fun w => w.slots.length) hv

theorem State.restView_base : v.base = u.base := by
  have := congrArg View.active hv
  exact congrArg (fun a : Option ConfigRecord => (a.map ConfigRecord.base).getD 0#24) this

theorem State.restView_headerRow (k : Nat) : v.headerRow k = u.headerRow k := by
  rw [State.headerRow, State.restView_base hv, State.headerRow]

theorem State.restView_imageRow (k : Nat) : v.imageRow k = u.imageRow k := by
  rw [State.imageRow, State.restView_base hv, State.imageRow]

theorem State.issueRead_asks (j : Job) (i : Nat) :
    Asks u { j with phase := .reading i } (.read (j.rowNumber i)) (v.issueRead j i) :=
  Asks.of_requestPort hv _ _

theorem State.issueWrite_asks (j : Job) (i : Nat) :
    ∃ content, Asks u { j with phase := .writing i } (.write (j.rowNumber i) content) (v.issueWrite j i) :=
  ⟨_, Asks.of_requestPort hv _ _⟩

theorem State.issueAppend_asks (j : Job) (i slot : Nat) (sequence : Word) (step : AppendStep) :
    ∃ content, Asks u { j with phase := .appending i slot sequence step }
      (.write (if step = .imageWrite then u.imageRow slot else u.headerRow slot) content)
      (v.issueAppend j i slot sequence step) := by
  cases step
  case headerClear =>
    rw [if_neg (by simp), ← State.restView_headerRow hv]
    exact ⟨_, Asks.of_requestPort hv _ _⟩
  case imageWrite =>
    rw [if_pos rfl, ← State.restView_imageRow hv]
    exact ⟨_, Asks.of_requestPort hv _ _⟩
  case headerWrite =>
    rw [if_neg (by simp), ← State.restView_headerRow hv]
    exact ⟨_, Asks.of_requestPort (v := v.raiseHeaderMark slot) hv _ _⟩

theorem State.consumeSequence_restView : v.consumeSequence.restView = u.restView := by
  unfold State.consumeSequence
  split
  · exact hv
  · exact hv

theorem State.startAppend_asks (j : Job) (i : Nat) :
    ∃ sequence step content, Asks u { j with phase := .appending i u.tail sequence step }
      (.write (if step = .imageWrite then u.imageRow u.tail else u.headerRow u.tail) content) (v.startAppend j i) := by
  obtain ⟨content, h⟩ := State.issueAppend_asks (State.consumeSequence_restView hv) j i v.tail v.nextSequence
    (if v.tail < v.headerMark then .headerClear else .imageWrite)
  rw [State.restView_tail hv] at h
  refine ⟨v.nextSequence, if u.tail < v.headerMark then .headerClear else .imageWrite, content, ?_⟩
  rw [State.startAppend, State.restView_tail hv]
  exact h

/-- A write job ends (R144). -/
theorem State.endWriteJob_course (okay : Bool) : Course { u with job := none } (v.endWriteJob okay) := by
  refine Course.refl.quiet ((State.decideIfDue_view _).trans ?_)
  exact (State.restView_of_view (v.retireHead_view okay)).trans hv

theorem State.refuseWriteJob_course (j : Job) (kind : FaultKind) (row : Nat) (slot : Option Nat) (partialDone : Bool) :
    Course { u with job := none } (v.refuseWriteJob j kind row slot partialDone) :=
  State.endWriteJob_course ((State.restView_of_view (v.file_view _)).trans hv) false

/-- The job is parked, and the drain acts on its head (R138, R51). -/
theorem State.park_course (j : Job) : Course { u with job := none } (v.park j) := by
  refine Course.spaceWaitEntered (Course.refl.quiet ((State.decideIfDue_view _).trans ?_))
  exact (State.restView_of_view (v.markHead_view _)).trans hv

theorem State.restView_nSlots : v.nSlots = u.nSlots := by
  have := congrArg View.active hv
  exact congrArg (fun a : Option ConfigRecord => (a.map ConfigRecord.nSlots).getD 0#16) this

/-! ## The stages of a write job -/

theorem JobMove.startWriting {j : Job} (hreads : Reads u j) (hnone : nextRow JobRow.needsRecord j.rows 0 = none) :
    JobMove u (v.startWriting j) := by
  unfold State.startWriting
  split
  · next k htouched =>
    obtain ⟨content, hasks⟩ := State.issueWrite_asks hv j k
    exact .writes j k content hreads hnone htouched hasks
  · exact .ends (State.endWriteJob_course (v := { v with job := some j }) hv true)

theorem JobMove.requestSpace {j : Job} (hreads : Reads u j) : JobMove u (v.requestSpace j) := by
  unfold State.requestSpace
  split
  · next hnone => exact JobMove.startWriting hv hreads hnone
  · next i hfirst =>
    split
    · next hgranted =>
      have hroom : u.tail + (j.rows.filter JobRow.needsRecord).length ≤ u.nSlots.toNat := by
        simp only [State.spaceGranted, Bool.and_eq_true, decide_eq_true_eq, State.restView_tail hv,
          State.restView_nSlots hv] at hgranted
        exact hgranted.1.1
      obtain ⟨sequence, step, content, hasks⟩ := State.startAppend_asks hv j i
      exact .appends j i sequence step content hreads hfirst hroom hasks
    · split
      · exact .ends (State.refuseWriteJob_course hv _ _ _ _ _)
      · exact .ends (State.park_course hv j)

theorem JobMove.afterReads {j : Job} (hreads : Reads u j) : JobMove u (v.afterReads j) := by
  unfold State.afterReads
  dsimp only
  split
  · exact .ends (State.refuseWriteJob_course (v := { v with job := some j }) hv _ _ _ _ _)
  · exact JobMove.requestSpace (v := { v with job := some j }) hv hreads

theorem JobMove.startWriteJob {j : Job} (hreads : Reads u j) : JobMove u (v.startWriteJob j) := by
  unfold State.startWriteJob
  split
  · exact .reads j _ hreads (State.issueRead_asks hv j _)
  · exact JobMove.afterReads hv hreads

theorem JobMove.writeJobNext {j : Job} (i : Nat) (hreads : Reads u j) : JobMove u (v.writeJobNext j i) := by
  unfold State.writeJobNext
  split
  · exact .reads j _ hreads (State.issueRead_asks hv j _)
  · exact JobMove.afterReads hv hreads

theorem JobMove.readJobNext {j : Job} (i : Nat) (hreads : Reads u j) : JobMove u (v.readJobNext j i) := by
  unfold State.readJobNext
  split
  · exact .reads j _ hreads (State.issueRead_asks hv j _)
  · exact .ends (Course.refl.quiet hv)

end

/-! ## Results of FRONT -/

section
variable {u : State} {j : Job} (hjob : u.job = some j)
include hjob

theorem Reads.withResult {i : Nat} (hphase : j.phase = .reading i) (result : RowRead) :
    Reads u (j.withResult i result) :=
  .current j i hjob hphase (j.withResult_work i result)

theorem JobMove.readJobRowDone {i : Nat} (hphase : j.phase = .reading i) (d : Delivery) :
    JobMove u (u.readJobRowDone j i d) := by
  unfold State.readJobRowDone
  split
  · split
    · exact JobMove.readJobNext rfl i (Reads.withResult hjob hphase _)
    · exact JobMove.readJobNext (State.restView_of_view (u.file_view _)) i (Reads.withResult hjob hphase _)
  · exact JobMove.readJobNext (State.restView_of_view (u.file_view _)) i (Reads.withResult hjob hphase _)

theorem JobMove.writeJobRowDone {i : Nat} (hphase : j.phase = .reading i) (d : Delivery) :
    JobMove u (u.writeJobRowDone j i d) := by
  unfold State.writeJobRowDone
  split
  · split
    · exact JobMove.writeJobNext rfl i (Reads.withResult hjob hphase _)
    · split
      · exact .ends (State.refuseWriteJob_course rfl _ _ _ _ _)
      · exact JobMove.writeJobNext rfl i (Reads.withResult hjob hphase _)
  · exact .ends (State.refuseWriteJob_course rfl _ _ _ _ _)

theorem JobMove.appendDone {i slot : Nat} {sequence : Word} {step : AppendStep}
    (hphase : j.phase = .appending i slot sequence step) (d : Delivery) :
    JobMove u (u.appendDone j i slot sequence step d) := by
  unfold State.appendDone
  split
  · exact .ends (State.refuseWriteJob_course rfl _ _ _ _ _)
  · cases step
    case headerClear =>
      obtain ⟨content, hasks⟩ := State.issueAppend_asks (u := u) rfl j i slot sequence .imageWrite
      exact .appendsOn j i slot sequence _ _ content hjob hphase hasks
    case imageWrite =>
      obtain ⟨content, hasks⟩ := State.issueAppend_asks (u := u) rfl j i slot sequence .headerWrite
      exact .appendsOn j i slot sequence _ _ content hjob hphase hasks
    case headerWrite =>
      dsimp only
      split
      · next k hnext =>
        obtain ⟨_, _, content, hasks⟩ := State.startAppend_asks
          (u := u.addRecord (j.rowNumber i) (j.rowAsRead i).side { imageBad := j.imageBad i, sequence := sequence })
          rfl j k
        exact .appendsNext j i k slot _ _ _ _ content _ _ _ rfl hjob hphase hnext hasks
      · next hlast =>
        unfold State.startWriting
        split
        · next k htouched =>
          obtain ⟨content, hasks⟩ := State.issueWrite_asks
            (u := u.addRecord (j.rowNumber i) (j.rowAsRead i).side { imageBad := j.imageBad i, sequence := sequence })
            rfl j k
          exact .writesRecorded j i k slot _ _ content _ _ hjob hphase hlast htouched hasks
        · exact .endsRecorded j i slot _ _ _ _ hjob hphase (State.endWriteJob_course (v := { u.addRecord (j.rowNumber i)
            (j.rowAsRead i).side { imageBad := j.imageBad i, sequence := sequence } with job := some j }) rfl true)

theorem JobMove.targetDone {i : Nat} (hphase : j.phase = .writing i) (d : Delivery) :
    JobMove u (u.targetDone j i d) := by
  unfold State.targetDone
  split
  · exact .ends (State.refuseWriteJob_course rfl _ _ _ _ _)
  · split
    · next k hnext =>
      obtain ⟨content, hasks⟩ := State.issueWrite_asks (u := u) rfl j k
      exact .writesOn j i k content hjob hphase hnext hasks
    · exact .ends (State.endWriteJob_course rfl true)

end

/-- A result on FRONT is a move of the job in progress (R148). -/
theorem JobMove.deliverFront (u : State) (d : Delivery) : JobMove u (u.deliverFront d) := by
  unfold State.deliverFront
  split
  · exact .stays rfl
  · next j hjob =>
    split
    · next hphase =>
      split
      · exact JobMove.readJobRowDone hjob hphase d
      · exact JobMove.writeJobRowDone hjob hphase d
    · next hphase => exact JobMove.appendDone hjob hphase d
    · next hphase => exact JobMove.targetDone hjob hphase d
    · exact .stays rfl

end Sys2Proof.Machine

/-! SUPPORT. Taking a job, and what every command makes of all that the laws tie together: a chain of moves, a move of the
Row Engine, an attempt that goes on, or a reset. -/
namespace Sys2Proof.Machine

set_option Elab.async false

/-! ## Classification -/

section
variable {u : State}

/-- A request that proceeds resolves to its region entry, and in a JOURNALED region the journal lets it (R3, R132). -/
theorem State.classify_proceed {r : Request} {ahead : Bool} {i : Fin 16} (h : u.classify r ahead = .proceed i) :
    u.outcomeOf r.address r.length = .entry i
      ∧ ((u.regions[i]).mode = .journaled → trafficFor u.journal r.isRead ahead = .proceeds) := by
  unfold State.classify at h
  split at h
  · cases h
  · cases h
  · cases h
  · next k hk =>
    split at h
    · cases h
    · split at h
      · next hmode =>
        split at h
        · next htraffic =>
          obtain rfl := Verdict.proceed.inj h
          exact ⟨hk, fun _ => htraffic⟩
        · cases h
        · cases h
      · next hmode =>
        obtain rfl := Verdict.proceed.inj h
        exact ⟨hk, fun hc => absurd hc hmode⟩

/-- A request that resolves to an entry has every row it covers in that entry (R102). -/
theorem State.lookup_of_outcomeOf {address : Address} {beats : Nat} {i : Fin 16}
    (h : u.outcomeOf address beats = .entry i) : ∀ row ∈ rowsOf address beats, u.lookup row = .entry i := by
  unfold State.outcomeOf State.requestOutcome at h
  intro row hrow
  rw [rowsOf, List.mem_cons, Option.mem_toList] at hrow
  split at h
  · next hsecond =>
    rw [hsecond] at hrow
    obtain rfl : row = rowOf address := by simpa using hrow
    split at h <;> simp_all
  · next second hsecond =>
    rw [hsecond] at hrow
    split at h
    · cases h
    · cases h
    · cases h
    · cases h
    · next hfirst hsecond' =>
      split at h
      · next heq =>
        obtain rfl := RequestOutcome.entry.inj h
        obtain rfl | hrow := hrow
        · exact hfirst
        · obtain rfl := Option.some.inj hrow
          exact heq ▸ hsecond'
      · cases h

/-- A row of a region entry is no reserved row (R103). -/
theorem State.not_reserved_of_lookup {row : Nat} {i : Fin 16} (h : u.lookup row = .entry i) :
    u.reservedRow row = false := by
  unfold State.lookup at h
  split at h
  · cases h
  · next hc => exact Bool.not_eq_true _ ▸ hc

/-- No region entry covers a row while no configuration is active (R100). -/
theorem State.configured_of_lookup {row : Nat} {i : Fin 16} (h : u.lookup row = .entry i) : u.active ≠ none := by
  intro hnone
  have hoff : ∀ k : Fin 16, (u.regions[k]).covers row = false := fun k => by
    simp [State.regions, hnone, RegionEntry.covers, RegionEntry.zero]
  have hmem : u.memSize = 0 := by simp [State.memSize, hnone]
  unfold State.lookup at h
  split at h
  · cases h
  · simp [hmem] at h

/-- A journaled write that proceeds finds the journal in no executing state (R3, R4). -/
theorem not_executing_of_traffic {journal : JournalState} {ahead : Bool}
    (h : trafficFor journal false ahead = .proceeds) : journal.executing = false := by
  cases journal <;> first | rfl | cases h

/-- The job of a read fits: it is no write (R143). -/
theorem TakenFit.of_read {j : Job} (hread : j.request.isRead = true) (hrows : ∀ r ∈ j.rows, r.needsRecord = false) :
    TakenFit u j := by
  have hno : j.journaledWrite = true → False := fun h => by simp [Job.journaledWrite, hread] at h
  exact ⟨fun r hr h => by simp [hrows r hr] at h, fun h => (hno h).elim, fun h => (hno h).elim, fun h => (hno h).elim,
    fun h => (hno h).elim⟩

/-- The job of a queue entry that proceeds fits (R103, R132, R134). -/
theorem State.writeJob_fit {e : Entry} {i : Fin 16} (h : u.classify e.request (u.ahead e) = .proceed i) :
    TakenFit u (u.writeJob e i) := by
  obtain ⟨houtcome, htraffic⟩ := State.classify_proceed h
  have hlookup := State.lookup_of_outcomeOf houtcome
  have hmode : (u.writeJob e i).journaledWrite = true → (u.regions[i]).mode = .journaled := fun hj => by
    simpa [Job.journaledWrite, State.writeJob, Entry.request, Request.isRead] using hj
  have hrow : ∀ r ∈ (u.writeJob e i).rows, ∃ row ∈ rowsOf e.address e.beats.length,
      r = u.writeJobRow e.address e.beats (u.regions[i]).mode row := fun r hr => by
    obtain ⟨row, hmem, heq⟩ := List.mem_map.mp hr
    exact ⟨row, hmem, heq.symm⟩
  refine ⟨fun r hr hneeds => ?records, fun hj => ?apart, fun hj => ?configured, fun hj r hr => ?unreserved,
    fun hj r hr htouched hneeds => ?segment⟩
  case records =>
    obtain ⟨row, _, rfl⟩ := hrow r hr
    simp only [State.writeJobRow, Bool.and_eq_true] at hneeds
    have hjournaled := beq_iff_eq.mp hneeds.1.2
    simpa [Job.journaledWrite, State.writeJob, Entry.request, Request.isRead] using hjournaled
  case apart => exact not_executing_of_traffic (htraffic (hmode hj))
  case configured => exact State.configured_of_lookup (hlookup _ List.mem_cons_self)
  case unreserved =>
    obtain ⟨row, hmem, rfl⟩ := hrow r hr
    exact State.not_reserved_of_lookup (hlookup row hmem)
  case segment =>
    obtain ⟨row, _, rfl⟩ := hrow r hr
    simp only [State.writeJobRow, JobRow.touched] at hneeds htouched ⊢
    have hjournaled : ((u.regions[i]).mode == .journaled) = true := beq_iff_eq.mpr (hmode hj)
    rwa [htouched, hjournaled, Bool.true_and, Bool.true_and] at hneeds

end

/-! ## Taking a job -/

section
variable {u : State} (hnone : u.job = none) (hreset : u.inReset = false)
include hnone hreset

theorem JobMove.examineHead (e : Entry) : JobMove u (u.examineHead e) := by
  unfold State.examineHead
  split
  · exact .stays rfl
  · exact .ends (State.endWriteJob_course (State.restView_of_view
      ((State.file_view _ _).trans (u.markHead_view _))) false)
  · next i hproceed =>
    exact JobMove.startWriteJob (State.restView_of_view (u.markHead_view _))
      (.taken hnone hreset (State.writeJob_fit hproceed))

theorem JobMove.examineOfferedHead : JobMove u u.examineOfferedHead := by
  unfold State.examineOfferedHead
  split
  · exact .stays rfl
  · exact JobMove.examineHead hnone hreset _

theorem JobMove.examineRead (p : PendingRead) : JobMove u (u.examineRead p) := by
  unfold State.examineRead
  dsimp only
  split
  · exact .stays rfl
  · exact .stays (u.file_view _)
  · have hrest : ({ u with pendingRead := some { p with taken := true } } : State).restView = u.restView := rfl
    refine .reads _ 0 ?_ (State.issueRead_asks hrest _ 0)
    refine .taken hnone hreset (TakenFit.of_read rfl fun r hr => ?_)
    obtain ⟨row, _, rfl⟩ := List.mem_map.mp hr
    rfl

/-- The Row Engine takes a job from the state, or from one that differs in the marks of its candidates alone (R131). -/
theorem JobMove.examine : ∃ v : State, v.view = u.view ∧ JobMove v u.examine := by
  unfold State.examine
  split
  · exact ⟨u, rfl, JobMove.examineOfferedHead hnone hreset⟩
  · next p _ =>
    split
    · next hhold =>
      have hexamined : u.examineRead p = { u with readHeld := true } := by
        unfold State.examineRead
        dsimp only
        rw [hhold]
      rw [hexamined]
      exact ⟨{ u with readHeld := true }, rfl, JobMove.examineOfferedHead hnone hreset⟩
    · exact ⟨u, rfl, JobMove.examineRead hnone hreset p⟩

end

/-! ## What a command makes of the state -/

/-- The port is free, and a waiting request is granted (R156). -/
def State.freed (s : State) (m : Memory) : State := ({ s with mem := m, port := .idle } : State).arbitrate

/-- The port carries the operation `f`. -/
def State.carries (s : State) (f : Flight) : Prop := s.port = .inFlight f ∨ s.port = .aborting f

/-- What a command makes of the state, of all that the laws tie together. -/
inductive Progress (s : State) : State → Prop
  | course {t : State} (h : Course s t) : Progress s t
  /-- A job is taken (R131). -/
  | taken {t : State} (v : State) (hnone : s.job = none) (hview : v.view = s.view) (h : JobMove v t) : Progress s t
  /-- A row operation of FRONT ends (R148). -/
  | front {t : State} (f : Flight) (m : Memory) (hport : s.carries f) (hfront : f.requester = .front)
      (h : JobMove (s.freed m) t) : Progress s t
  /-- A row operation of MAINT ends (R148). -/
  | maint {t : State} (f : Flight) (m : Memory) (hport : s.carries f) (hmaint : f.requester = .maint)
      (h : Course (s.freed m) t) : Progress s t
  /-- The attempt is retried, or is being aborted (R150, R151). -/
  | goesOn {t : State} (f g : Flight) (hport : s.carries f) (hop : g.requester = f.requester ∧ g.op = f.op)
      (hcarries : t.carries g) (hview : t.view = ({ s with port := t.port } : State).view) : Progress s t
  /-- The part is reset (R74). -/
  | reset (left : Residue) : Progress s (s.resetWith left)

theorem EndsFlight.carries {c : Instr} {s : State} {f : Flight} (h : EndsFlight c s f) : s.carries f := by
  obtain ⟨_, _, hp⟩ | ⟨_, ⟨_, hp⟩ | ⟨_, hp⟩⟩ := h
  · exact .inl hp
  · exact .inl hp
  · exact .inr hp

/-- A result goes to the requester of its operation (R148). -/
theorem Progress.delivered {s : State} {f : Flight} (m : Memory) (hport : s.carries f) (d : Delivery) :
    Progress s ((s.freed m).deliver f.requester d) := by
  cases hr : f.requester
  case front => exact .front f m hport hr (JobMove.deliverFront _ d)
  case maint => exact .maint f m hport hr (Course.deliverMaint .refl d)

/-- An attempt that ends without success is retried, or fails its operation for good (R151, R152). -/
theorem EndsAttempt.progress {c : Instr} {s t : State} {left : Residue} {f : Flight} (h : EndsAttempt c s left f)
    (he : exec c s = .next t) : Progress s t := by
  obtain ⟨kind, hk⟩ := h.exec_eq
  obtain rfl : _ = t := Host.Outcome.next.inj (hk.symm.trans he)
  have hport : s.carries f := EndsFlight.carries (.inr ⟨left, h⟩)
  have hmem : s.leaveResidue f.op left = { s with mem := (s.leaveResidue f.op left).mem } := by
    unfold State.leaveResidue
    split
    · rfl
    · rfl
  rw [hmem]
  unfold State.attemptFailed
  split
  · exact .goesOn f { f with attempt := f.attempt + 1, last := some kind } hport ⟨rfl, rfl⟩ (.inl rfl) rfl
  · exact .delivered _ hport _

/-- What every command makes of the state. -/
theorem exec_progress {c : Instr} {s t : State} (he : exec c s = .next t) : Progress s t := by
  have hend : ∀ left, (c = .memoryAttemptFail left ∨ c = .abortAcknowledge left) → Progress s t := by
    intro left hc
    by_cases h : ∃ f, EndsAttempt c s left f
    · exact h.choose_spec.progress he
    · rw [exec_eq_self_of_not_endsAttempt hc (not_exists.mp h)] at he
      exact Host.Outcome.next.inj he ▸ .course .refl
  by_cases hengine : ofRowEngine c
  · cases c <;> try exact hengine.elim
    case jobTake =>
      obtain rfl := Host.Outcome.next.inj he
      split
      · next hb =>
        simp only [Bool.and_eq_true, Bool.not_eq_true', Option.isNone_iff_eq_none] at hb
        obtain ⟨⟨hreset, hnone⟩, _⟩ := hb
        obtain ⟨v, hview, h⟩ := JobMove.examine hnone hreset
        exact .taken v hnone hview h
      · exact .course .refl
    case memoryAttemptDone delivered =>
      simp only [exec, execMemoryAttemptDone] at he
      split at he
      · exact Host.Outcome.next.inj he ▸ .course .refl
      · exact Host.Outcome.next.inj he ▸ .course .refl
      · next f hp =>
        obtain rfl := Host.Outcome.next.inj he
        exact .delivered _ (.inl hp) _
    case memoryAttemptFail left => exact hend left (.inl rfl)
    case abortAcknowledge left => exact hend left (.inr rfl)
    case attemptTimerExpiry =>
      simp only [exec, execAttemptTimerExpiry] at he
      split at he
      · exact Host.Outcome.next.inj he ▸ .course .refl
      · exact Host.Outcome.next.inj he ▸ .course .refl
      · next f hp =>
        obtain rfl := Host.Outcome.next.inj he
        exact .goesOn f f (.inl hp) ⟨rfl, rfl⟩ (.inr rfl) rfl
    case rstAssert left =>
      obtain rfl := Host.Outcome.next.inj he
      exact .reset left
  · exact .course (exec_course he hengine)

end Sys2Proof.Machine

/-! SUPPORT. The row-index law and the chains (R15, R33, R79), and the savepoint stack (R28), kept by every move. -/
namespace Sys2Proof.Machine

set_option Elab.async false

/-! ## The row index and the chains -/

/-- The row index of a slot table is in order and names the newest slot of every row, and the back-links are
well-formed (R15, R33). -/
def TablesIndexed (slots : List SlotEntry) (index : List (Nat × Nat)) : Prop :=
  indexRising index ∧ (∀ row, indexGet index row = newestSlot slots row) ∧ chainLaw slots

theorem State.indexLaw_iff (u : State) : u.indexLaw ↔ TablesIndexed u.slots u.index ∧ chainLaw u.scannedSlots := by
  simp only [State.indexLaw, TablesIndexed, and_assoc]

theorem chainLaw_nil : chainLaw [] := fun _ _ h => by simp at h

/-- A chain goes on with the entry whose back-link names the newest slot of its row (R33). -/
theorem chainLaw_append {slots : List SlotEntry} {e : SlotEntry} (h : chainLaw slots)
    (hlink : e.backLink = newestSlot slots e.target) : chainLaw (slots ++ [e]) := by
  intro k x hx
  obtain hlt | heq | hgt := Nat.lt_trichotomy k slots.length
  · rw [List.getElem?_append_left hlt] at hx
    rw [List.take_append_of_le_length hlt.le]
    exact h k x hx
  · subst heq
    obtain rfl : e = x := by simpa using hx
    simpa using hlink
  · rw [List.getElem?_eq_none (by simp; omega)] at hx
    cases hx

theorem chainLaw_dropLast {slots : List SlotEntry} (h : chainLaw slots) : chainLaw slots.dropLast := by
  intro k x hx
  obtain ⟨hk, _⟩ := List.getElem?_eq_some_iff.mp hx
  rw [List.length_dropLast] at hk
  rw [List.getElem?_dropLast, if_pos hk] at hx
  rw [List.dropLast_eq_take, List.take_take, min_eq_left (by omega)]
  exact h k x hx

theorem TablesIndexed.empty : TablesIndexed [] [] := ⟨List.Pairwise.nil, fun _ => rfl, chainLaw_nil⟩

/-- A record joins the table with the back-link the index names (R22, R33). -/
theorem TablesIndexed.append {slots : List SlotEntry} {index : List (Nat × Nat)} (h : TablesIndexed slots index)
    (row : Nat) (side : Half) :
    TablesIndexed (slots ++ [{ target := row, backLink := indexGet index row, side := side }])
      (indexSet index row slots.length) := by
  obtain ⟨hrising, hnames, hchain⟩ := h
  refine ⟨indexRising_indexSet _ _ _ hrising, fun n => ?_, chainLaw_append hchain (hnames row)⟩
  rw [newestSlot_append]
  by_cases hn : row = n
  · subst hn
    simp [indexGet_indexSet_same]
  · rw [indexGet_indexSet_other _ _ _ (Ne.symm hn), if_neg hn]
    exact hnames n

/-- The newest record leaves the table, and its row's entry is repaired from the back-link (R35). -/
theorem TablesIndexed.dropLast {slots : List SlotEntry} {e : SlotEntry} {index : List (Nat × Nat)}
    (h : TablesIndexed slots index) (he : slots.getLast? = some e) :
    TablesIndexed slots.dropLast (indexRepair index e.target e.backLink) := by
  obtain ⟨hrising, hnames, hchain⟩ := h
  have hslots : slots = slots.dropLast ++ [e] := by
    obtain ⟨_, hlast⟩ := List.getLast?_eq_some_iff.mp he
    rw [hlast, List.dropLast_concat]
  have hlink : e.backLink = newestSlot slots.dropLast e.target := by
    have hget : slots[slots.dropLast.length]? = some e := by
      conv_lhs => rw [hslots]
      simp
    rw [hchain _ e hget]
    conv_lhs => rw [hslots]
    simp
  refine ⟨indexRising_indexRepair _ _ _ hrising, fun n => ?_, chainLaw_dropLast hchain⟩
  have hn := hnames n
  rw [hslots, newestSlot_append] at hn
  by_cases hrow : e.target = n
  · subst hrow
    cases hb : e.backLink with
    | none =>
      rw [hb] at hlink
      exact (indexGet_indexErase_same _ _ hrising).trans hlink
    | some b =>
      rw [hb] at hlink
      exact (indexGet_indexSet_same _ _ _).trans hlink
  · rw [if_neg hrow] at hn
    rw [← hn]
    cases e.backLink with
    | none => exact indexGet_indexErase_other _ _ (Ne.symm hrow) _
    | some b => exact indexGet_indexSet_other _ _ _ (Ne.symm hrow) _

theorem TablesIndexed.build {slots : List SlotEntry} (h : chainLaw slots) : TablesIndexed slots (indexFrom 0 [] slots) :=
  ⟨(indexFrom_names_newest slots).1, (indexFrom_names_newest slots).2, h⟩

/-- The slots that a task of the scan has accepted (R79). -/
def MaintTask.scanned : MaintTask → List SlotEntry
  | .scanHeader _ _ accepted => accepted
  | _ => []

theorem State.scannedSlots_runMaint (u : State) (task : MaintTask) (op : RowOp) :
    (u.runMaint task op).scannedSlots = task.scanned := by
  simp only [State.scannedSlots, State.runMaint_maint]
  cases task <;> rfl

theorem MaintTask.scanned_of_plain {task : MaintTask} (h : task.plain = true) : task.scanned = [] := by
  cases task <;> first | rfl | cases h

theorem MaintTask.scanned_of_copy {task : MaintTask} (h : task.ofCopyWrite = true) : task.scanned = [] := by
  cases task <;> first | rfl | cases h

/-- What the scan goes on with is a chain (R79). -/
theorem Follows.chainLaw {u : State} {task : MaintTask} (h : Follows u task) (hu : chainLaw u.scannedSlots) :
    chainLaw task.scanned := by
  cases h with
  | scanNext k headers accepted header e hmaint hlink =>
    rw [State.scannedSlots, hmaint] at hu
    exact chainLaw_append hu hlink
  | plain _ htask => exact MaintTask.scanned_of_plain htask ▸ chainLaw_nil
  | copy _ htask => exact MaintTask.scanned_of_copy htask ▸ chainLaw_nil
  | load | target | image | anchor | scan => exact chainLaw_nil

theorem ScanTaken.chainLaw {headers hs : List SlotHeader} {accepted es : List SlotEntry}
    (h : ScanTaken headers accepted hs es) (hchain : chainLaw accepted) : chainLaw es := by
  cases h with
  | these => exact hchain
  | andLast header e hlink => exact chainLaw_append hchain hlink

theorem State.dropRecord_indexed {u : State} (h : TablesIndexed u.slots u.index) :
    TablesIndexed u.dropRecord.slots u.dropRecord.index := by
  unfold State.dropRecord
  split
  · exact h
  · next e he => exact h.dropLast he

theorem State.indexLaw_of_view {u t : State} (h : t.view = u.view) (hu : u.indexLaw) : t.indexLaw := by
  unfold State.indexLaw State.scannedSlots at *
  rwa [State.view_index h, State.view_slots h, State.view_maint h]

/-- The work on MAINT changes, and the tables as they are indexed. -/
theorem State.indexLaw_runMaint {u : State} (htables : TablesIndexed u.slots u.index) {task : MaintTask} {op : RowOp}
    (htask : chainLaw task.scanned) : (u.runMaint task op).indexLaw := by
  rw [State.indexLaw_iff, State.scannedSlots_runMaint]
  simpa using ⟨htables, htask⟩

/-- Nothing is on MAINT, and the tables are indexed. -/
theorem State.indexLaw_of_idle {u : State} (htables : TablesIndexed u.slots u.index) (hmaint : u.maint = none) :
    u.indexLaw := by
  rw [State.indexLaw_iff, State.scannedSlots, hmaint]
  exact ⟨htables, chainLaw_nil⟩

theorem Course.indexLaw {s t : State} (h : Course s t) (hs : s.indexLaw) : t.indexLaw := by
  induction h with
  | refl => exact hs
  | quiet _ hview ih => exact State.indexLaw_of_view hview ih
  | stage _ _ _ ih | take _ _ _ _ _ ih | execute _ _ _ _ _ _ _ _ _ _ ih | mark _ ih | roll _ _ _ _ _ _ ih
  | adopt _ _ _ _ _ _ ih => exact ih
  | close _ _ _ _ _ _ _ ih | due _ _ ih | loaded _ _ _ _ _ _ _ _ ih =>
    exact State.indexLaw_of_idle ((State.indexLaw_iff _).mp ih).1 rfl
  | dropClose _ _ _ ih =>
    exact State.indexLaw_of_idle (State.dropRecord_indexed ((State.indexLaw_iff _).mp ih).1) rfl
  | ask _ _ _ hfollows ih =>
    obtain ⟨htables, hscanned⟩ := (State.indexLaw_iff _).mp ih
    exact State.indexLaw_runMaint htables (hfollows.chainLaw hscanned)
  | beginCopy _ _ _ _ _ _ _ _ _ htask ih =>
    refine State.indexLaw_runMaint ?_ (MaintTask.scanned_of_copy htask ▸ chainLaw_nil)
    exact ((State.indexLaw_iff _).mp ih).1
  | loadedScan _ _ _ _ _ _ _ _ _ ih | start _ _ _ _ _ _ ih =>
    refine State.indexLaw_runMaint ?_ chainLaw_nil
    exact ((State.indexLaw_iff _).mp ih).1
  | adoptFormat => exact State.indexLaw_runMaint TablesIndexed.empty chainLaw_nil
  | adoptEmpty _ _ _ _ _ ih | empty _ _ ih =>
    exact (State.indexLaw_iff _).mpr ⟨TablesIndexed.empty, ((State.indexLaw_iff _).mp ih).2⟩
  | build _ hmaint htaken ih =>
    have hscanned := ((State.indexLaw_iff _).mp ih).2
    have haccepted := hscanned
    rw [State.scannedSlots, hmaint] at haccepted
    exact (State.indexLaw_iff _).mpr ⟨TablesIndexed.build (htaken.chainLaw haccepted), hscanned⟩
  | drop _ task _ _ htask ih =>
    have hnone : task.scanned = [] := by
      obtain hplain | ⟨⟨j, rfl⟩, _⟩ := htask
      · exact MaintTask.scanned_of_plain hplain
      · rfl
    exact State.indexLaw_runMaint (State.dropRecord_indexed ((State.indexLaw_iff _).mp ih).1) (hnone ▸ chainLaw_nil)

theorem State.addRecord_indexLaw {u : State} (h : u.indexLaw) (row : Nat) (side : Half) (header : SlotHeader) :
    (u.addRecord row side header).indexLaw := by
  obtain ⟨htables, hscanned⟩ := (State.indexLaw_iff u).mp h
  exact (State.indexLaw_iff _).mpr ⟨htables.append row side, hscanned⟩

theorem Asks.indexLaw {u t : State} {j : Job} {op : RowOp} (h : Asks u j op t) (hu : u.indexLaw) : t.indexLaw :=
  State.indexLaw_of_view h.view hu

theorem JobMove.indexLaw {u t : State} (h : JobMove u t) (hu : u.indexLaw) : t.indexLaw := by
  cases h with
  | stays hview => exact State.indexLaw_of_view hview hu
  | reads _ _ _ hasks => exact hasks.indexLaw hu
  | appends _ _ _ _ _ _ _ _ hasks => exact hasks.indexLaw hu
  | appendsOn _ _ _ _ _ _ _ _ _ hasks => exact hasks.indexLaw hu
  | appendsNext _ _ _ _ _ _ _ _ _ _ _ _ hw _ _ _ hasks => exact hasks.indexLaw (hw ▸ State.addRecord_indexLaw hu _ _ _)
  | writesRecorded _ _ _ _ _ _ _ _ _ _ _ _ _ hasks => exact hasks.indexLaw (State.addRecord_indexLaw hu _ _ _)
  | writes _ _ _ _ _ _ hasks => exact hasks.indexLaw hu
  | writesOn _ _ _ _ _ _ _ hasks => exact hasks.indexLaw hu
  | ends hcourse => exact hcourse.indexLaw hu
  | endsRecorded j i _ _ _ side header _ _ hcourse =>
    exact hcourse.indexLaw (State.addRecord_indexLaw hu (j.rowNumber i) side header)

/-- A law of the view without the port and FRONT's operations holds as the port becomes free. -/
theorem State.freed_keeps (s : State) (m : Memory) : (s.freed m).view
    = ({ s with port := (s.freed m).port, waitFront := (s.freed m).waitFront } : State).view := by
  simp only [State.view, View.mk.injEq]
  simp only [State.freed, State.arbitrate_frame, true_and]
  exact ⟨rfl, rfl⟩

theorem exec_indexLaw {c : Instr} {s t : State} (he : exec c s = .next t) (hs : s.indexLaw) : t.indexLaw := by
  have hfreed : ∀ m, (s.freed m).indexLaw := fun m => State.indexLaw_of_view (s.freed_keeps m) hs
  cases exec_progress he with
  | course h => exact h.indexLaw hs
  | taken v _ hview h => exact h.indexLaw (State.indexLaw_of_view hview hs)
  | front f m _ _ h => exact h.indexLaw (hfreed m)
  | maint f m _ _ h => exact h.indexLaw (hfreed m)
  | goesOn f g _ _ _ hview => exact State.indexLaw_of_view hview hs
  | reset left => exact State.indexLaw_of_idle TablesIndexed.empty rfl

/-- Settles O7: the tables stay indexed and the scan's slots a chain, move by move. -/
theorem rowIndexLawIsKept : Obligations.RowIndexLawIsKept :=
  fun _ _ hs h => step_keeps (fun _ _ => id) exec_indexLaw hs h

/-! ## The savepoint stack -/

/-- The positions of a savepoint stack: at most 7, top first not increasing, none greater than the tail (R28). -/
def StackFits (stack : List Nat) (tail : Nat) : Prop :=
  stack.length ≤ 7 ∧ stack.Pairwise (fun a b => b ≤ a) ∧ ∀ p ∈ stack, p ≤ tail

/-- While a restore is under way the stack is empty, or an UNDO has not yet reached its top position (R32, R54). -/
def State.restoreFits (u : State) : Prop :=
  u.stack = [] ∨ (u.longOp.map LongOp.kind) = some .undo ∧ u.segmentStart < u.tail

theorem State.stackLaw_iff (u : State) :
    u.stackLaw ↔ StackFits u.stack u.tail ∧ (u.restoring = true → u.restoreFits) := by
  simp only [State.stackLaw, StackFits, State.restoreFits, and_assoc]

theorem StackFits.empty (tail : Nat) : StackFits [] tail :=
  ⟨Nat.zero_le _, List.Pairwise.nil, fun _ h => by simp at h⟩

theorem StackFits.mono {stack : List Nat} {a b : Nat} (h : StackFits stack a) (hab : a ≤ b) : StackFits stack b :=
  ⟨h.1, h.2.1, fun p hp => (h.2.2 p hp).trans hab⟩

/-- A stack fits a tail that its top position does not exceed. -/
theorem StackFits.of_top {stack : List Nat} {a b : Nat} (h : StackFits stack a) (htop : stack.headD 0 ≤ b) :
    StackFits stack b := by
  obtain ⟨hlen, hpairwise, _⟩ := h
  refine ⟨hlen, hpairwise, fun p hp => ?_⟩
  cases stack with
  | nil => simp at hp
  | cons q rest =>
    obtain rfl | hrest := List.mem_cons.mp hp
    · exact htop
    · exact ((List.pairwise_cons.mp hpairwise).1 p hrest).trans htop

theorem StackMove.fits {u : State} {stack : List Nat} (h : StackMove u stack) (hu : StackFits u.stack u.tail) :
    StackFits stack u.tail := by
  obtain ⟨hlen, hpairwise, hbound⟩ := hu
  cases h with
  | same => exact ⟨hlen, hpairwise, hbound⟩
  | emptied => exact StackFits.empty _
  | pushed _ hroom =>
    refine ⟨by simp only [List.length_cons]; omega, List.pairwise_cons.mpr ⟨hbound, hpairwise⟩, fun p hp => ?_⟩
    obtain rfl | hrest := List.mem_cons.mp hp
    · exact le_refl _
    · exact hbound p hrest
  | popped _ p rest hstack =>
    rw [hstack] at hlen hpairwise hbound
    simp only [List.length_cons] at hlen
    exact ⟨by omega, (List.pairwise_cons.mp hpairwise).2, fun q hq => hbound q (List.mem_cons_of_mem p hq)⟩

theorem State.restoring_runMaint (u : State) (task : MaintTask) (op : RowOp) :
    (u.runMaint task op).restoring = task.ofRestore := by
  simp [State.restoring]

theorem MaintTask.not_restore_of_plain {task : MaintTask} (h : task.plain = true) : task.ofRestore = false := by
  cases task <;> first | rfl | cases h

theorem MaintTask.not_restore_of_copy {task : MaintTask} (h : task.ofCopyWrite = true) : task.ofRestore = false := by
  cases task <;> first | rfl | cases h

theorem State.stackLaw_of_view {u t : State} (h : t.view = u.view) (hu : u.stackLaw) : t.stackLaw := by
  unfold State.stackLaw State.restoring State.segmentStart State.tail at *
  rwa [State.view_stack h, State.view_slots h, State.view_maint h, State.view_kind h]

theorem State.stackLaw_of_not_restoring {u : State} (hfits : StackFits u.stack u.tail) (h : u.restoring = false) :
    u.stackLaw :=
  (State.stackLaw_iff u).mpr ⟨hfits, fun hr => by simp [h] at hr⟩

/-- MAINT goes on with work that is no restore. -/
theorem State.stackLaw_runMaint {u : State} (hfits : StackFits u.stack u.tail) {task : MaintTask} {op : RowOp}
    (htask : task.ofRestore = false) : (u.runMaint task op).stackLaw := by
  refine State.stackLaw_of_not_restoring ?_ ((u.restoring_runMaint task op).trans htask)
  simpa [State.tail] using hfits

/-- A restore goes on. -/
theorem State.stackLaw_runMaint_of_fits {u : State} (hfits : StackFits u.stack u.tail) (hrestore : u.restoreFits)
    (task : MaintTask) (op : RowOp) : (u.runMaint task op).stackLaw := by
  refine (State.stackLaw_iff _).mpr ⟨by simpa [State.tail] using hfits, fun _ => ?_⟩
  simpa [State.restoreFits, State.segmentStart, State.tail] using hrestore

theorem State.dropRecord_tail (u : State) : u.dropRecord.tail = u.tail - 1 := by
  unfold State.dropRecord
  split
  · next hnone => simp [State.tail, List.getLast?_eq_none_iff.mp hnone]
  · simp [State.tail]

/-- A restored slot leaves the table, and the stack still fits it (R52, R54). -/
theorem State.dropRecord_fits {u : State} (hu : u.stackLaw) (hrestoring : u.restoring = true) :
    StackFits u.dropRecord.stack u.dropRecord.tail := by
  obtain ⟨hfits, hrestore⟩ := (State.stackLaw_iff u).mp hu
  have hstack : u.dropRecord.stack = u.stack := by simp
  rw [hstack, State.dropRecord_tail]
  obtain hempty | ⟨_, hstart⟩ := hrestore hrestoring
  · rw [hempty]
    exact StackFits.empty _
  · refine hfits.of_top ?_
    rw [State.segmentStart] at hstart
    omega

/-- The next image to restore lies above the top position of an UNDO (R54). -/
theorem State.dropRecord_restoreFits {u : State} (hu : u.stackLaw) (hrestoring : u.restoring = true)
    (hfloor : u.dropRecord.restoreFloor < u.dropRecord.tail) : u.dropRecord.restoreFits := by
  obtain hempty | ⟨hundo, _⟩ := ((State.stackLaw_iff u).mp hu).2 hrestoring
  · exact .inl (by simpa using hempty)
  · have hundo' : (u.dropRecord.longOp.map LongOp.kind) = some .undo := by simpa using hundo
    rw [State.restoreFloor, if_pos hundo'] at hfloor
    exact .inr ⟨hundo', hfloor⟩

theorem Course.stackLaw {s t : State} (h : Course s t) (hs : s.stackLaw) : t.stackLaw := by
  induction h with
  | refl => exact hs
  | quiet _ hview ih => exact State.stackLaw_of_view hview ih
  | stage _ _ _ ih | mark _ ih | adopt _ _ _ _ _ _ ih => exact ih
  | take _ _ hnone _ _ ih =>
    obtain ⟨hfits, hrestore⟩ := (State.stackLaw_iff _).mp ih
    refine (State.stackLaw_iff _).mpr ⟨hfits, fun hr => (hrestore hr).imp id fun ⟨hundo, _⟩ => ?_⟩
    simp [hnone] at hundo
  | close _ _ _ _ _ _ hstack ih =>
    exact State.stackLaw_of_not_restoring (hstack.fits ((State.stackLaw_iff _).mp ih).1) rfl
  | execute _ o journal stack hop _ _ _ _ hstack ih =>
    obtain ⟨hfits, hrestore⟩ := (State.stackLaw_iff _).mp ih
    obtain rfl | rfl := hstack
    · refine (State.stackLaw_iff _).mpr ⟨hfits, fun hr => (hrestore hr).imp id fun ⟨hundo, hstart⟩ => ⟨?_, hstart⟩⟩
      simpa [hop] using hundo
    · exact (State.stackLaw_iff _).mpr ⟨StackFits.empty _, fun _ => .inl rfl⟩
  | beginCopy _ _ _ _ _ _ _ _ _ htask ih =>
    refine State.stackLaw_runMaint ?_ (MaintTask.not_restore_of_copy htask)
    exact ((State.stackLaw_iff _).mp ih).1
  | ask _ _ _ hfollows ih =>
    obtain ⟨hfits, hrestore⟩ := (State.stackLaw_iff _).mp ih
    cases hfollows with
    | target j hrestoring => exact State.stackLaw_runMaint_of_fits hfits (hrestore hrestoring) _ _
    | image j _ hfloor hstack =>
      refine State.stackLaw_runMaint_of_fits hfits (hstack.imp id fun hundo => ⟨hundo, ?_⟩) _ _
      rwa [State.restoreFloor, if_pos hundo] at hfloor
    | plain _ htask => exact State.stackLaw_runMaint hfits (MaintTask.not_restore_of_plain htask)
    | copy _ htask => exact State.stackLaw_runMaint hfits (MaintTask.not_restore_of_copy htask)
    | load | anchor | scan | scanNext => exact State.stackLaw_runMaint hfits rfl
  | due _ _ ih | loaded _ _ _ _ _ _ _ _ ih =>
    exact State.stackLaw_of_not_restoring ((State.stackLaw_iff _).mp ih).1 rfl
  | loadedScan _ _ _ _ _ _ _ _ _ ih | start _ _ _ _ _ _ ih =>
    refine State.stackLaw_runMaint ?_ rfl
    exact ((State.stackLaw_iff _).mp ih).1
  | adoptFormat => exact State.stackLaw_runMaint (StackFits.empty _) rfl
  | adoptEmpty | empty | build | roll => exact (State.stackLaw_iff _).mpr ⟨StackFits.empty _, fun _ => .inl rfl⟩
  | drop _ task _ hrestoring htask ih =>
    have hfits := State.dropRecord_fits ih hrestoring
    obtain hplain | ⟨_, hfloor⟩ := htask
    · exact State.stackLaw_runMaint hfits (MaintTask.not_restore_of_plain hplain)
    · exact State.stackLaw_runMaint_of_fits hfits (State.dropRecord_restoreFits ih hrestoring hfloor) _ _
  | dropClose _ _ hrestoring ih =>
    refine State.stackLaw_of_not_restoring ?_ rfl
    simpa [State.closed, State.tail] using State.dropRecord_fits ih hrestoring

theorem State.addRecord_stackLaw {u : State} (h : u.stackLaw) (row : Nat) (side : Half) (header : SlotHeader) :
    (u.addRecord row side header).stackLaw := by
  obtain ⟨hfits, hrestore⟩ := (State.stackLaw_iff u).mp h
  have htail : (u.addRecord row side header).tail = u.tail + 1 := by simp [State.addRecord, State.tail]
  refine (State.stackLaw_iff _).mpr ⟨?_, fun hr => (hrestore hr).imp id fun ⟨hundo, hstart⟩ => ⟨hundo, ?_⟩⟩
  · rw [htail]
    exact hfits.mono (Nat.le_succ _)
  · rw [htail]
    exact Nat.lt_succ_of_lt hstart

theorem Asks.stackLaw {u t : State} {j : Job} {op : RowOp} (h : Asks u j op t) (hu : u.stackLaw) : t.stackLaw :=
  State.stackLaw_of_view h.view hu

theorem JobMove.stackLaw {u t : State} (h : JobMove u t) (hu : u.stackLaw) : t.stackLaw := by
  cases h with
  | stays hview => exact State.stackLaw_of_view hview hu
  | reads _ _ _ hasks => exact hasks.stackLaw hu
  | appends _ _ _ _ _ _ _ _ hasks => exact hasks.stackLaw hu
  | appendsOn _ _ _ _ _ _ _ _ _ hasks => exact hasks.stackLaw hu
  | appendsNext _ _ _ _ _ _ _ _ _ _ _ _ hw _ _ _ hasks => exact hasks.stackLaw (hw ▸ State.addRecord_stackLaw hu _ _ _)
  | writesRecorded _ _ _ _ _ _ _ _ _ _ _ _ _ hasks => exact hasks.stackLaw (State.addRecord_stackLaw hu _ _ _)
  | writes _ _ _ _ _ _ hasks => exact hasks.stackLaw hu
  | writesOn _ _ _ _ _ _ _ hasks => exact hasks.stackLaw hu
  | ends hcourse => exact hcourse.stackLaw hu
  | endsRecorded j i _ _ _ side header _ _ hcourse =>
    exact hcourse.stackLaw (State.addRecord_stackLaw hu (j.rowNumber i) side header)

theorem exec_stackLaw {c : Instr} {s t : State} (he : exec c s = .next t) (hs : s.stackLaw) : t.stackLaw := by
  have hfreed : ∀ m, (s.freed m).stackLaw := fun m => State.stackLaw_of_view (s.freed_keeps m) hs
  cases exec_progress he with
  | course h => exact h.stackLaw hs
  | taken v _ hview h => exact h.stackLaw (State.stackLaw_of_view hview hs)
  | front f m _ _ h => exact h.stackLaw (hfreed m)
  | maint f m _ _ h => exact h.stackLaw (hfreed m)
  | goesOn f g _ _ _ hview => exact State.stackLaw_of_view hview hs
  | reset left => exact State.stackLaw_of_not_restoring (StackFits.empty _) rfl

end Sys2Proof.Machine

/-! SUPPORT. The active configuration (R161), and the exclusion of the Journal Unit's own work and a journaled write job
(R3, R4), kept by every move. -/
namespace Sys2Proof.Machine

set_option Elab.async false

/-! ## The active configuration -/

section
variable {u : State}

/-- The record that a task of the load carries (R164). -/
def MaintTask.loadedFirst : MaintTask → Option ConfigRecord
  | .loadRow _ _ _ first => first
  | _ => none

theorem State.loadedFirst_runMaint (u : State) (task : MaintTask) (op : RowOp) :
    (u.runMaint task op).loadedFirst = task.loadedFirst := by
  simp only [State.loadedFirst, State.runMaint_maint]
  cases task <;> rfl

theorem State.copyWork_runMaint (u : State) (task : MaintTask) (op : RowOp) :
    (u.runMaint task op).copyWork = (u.activationDue || task.ofCopyWrite) := by
  simp [State.copyWork]

theorem State.configLaw_of_view {t : State} (h : t.view = u.view) (hu : u.configLaw) : t.configLaw := by
  have hphase : (t.longOp.map fun o => (o.kind, o.phase)) = (u.longOp.map fun o => (o.kind, o.phase)) := by
    have := congrArg (Option.map fun p : OpKind × Origin × OpPhase => (p.1, p.2.2)) (State.view_operation h)
    simpa [Function.comp_def, LongOp.identity] using this
  unfold State.configLaw State.loadedFirst State.copyWork at *
  rwa [State.view_active h, State.view_maint h, State.view_activationDue h, hphase, State.view_staging h,
    State.view_inReset h]

/-- Nothing is on MAINT and no activation waits. -/
theorem State.configLaw_of_idle (hactive : ∀ c, u.active = some c → c.valid = true) (hmaint : u.maint = none)
    (hdue : u.activationDue = false) : u.configLaw := by
  have hwork : u.copyWork = false := by simp [State.copyWork, hdue, hmaint]
  refine ⟨hactive, fun c hc => ?_, fun hw => ?_, fun _ => hmaint, fun _ => ⟨hwork, hmaint⟩⟩
  · simp [State.loadedFirst, hmaint] at hc
  · simp [hwork] at hw

/-- Work on MAINT that is none of an APPLY's copy write. -/
theorem State.configLaw_runMaint {task : MaintTask} {op : RowOp} (hactive : ∀ c, u.active = some c → c.valid = true)
    (hdue : u.activationDue = false) (hreset : u.inReset = false) (htask : task.ofCopyWrite = false)
    (hfirst : ∀ c, task.loadedFirst = some c → c.valid = true) : (u.runMaint task op).configLaw := by
  have hwork : (u.runMaint task op).copyWork = false := by rw [State.copyWork_runMaint, hdue, htask]; rfl
  refine ⟨by simpa using hactive, fun c hc => ?_, fun hw => ?_, fun hd => ?_, fun hr => ?_⟩
  · rw [State.loadedFirst_runMaint] at hc
    exact hfirst c hc
  · simp [hwork] at hw
  · simp [hdue] at hd
  · simp [hreset] at hr

/-- The copy write of an APPLY that executes over a staged record that passes validation. -/
theorem State.configLaw_runMaint_copy {task : MaintTask} {op : RowOp} (htask : task.ofCopyWrite = true)
    (hactive : ∀ c, u.active = some c → c.valid = true) (hdue : u.activationDue = false) (hreset : u.inReset = false)
    (hop : (u.longOp.map fun o => (o.kind, o.phase)) = some (.apply, .executing)) (hvalid : u.staging.valid = true) :
    (u.runMaint task op).configLaw := by
  have hfirst : task.loadedFirst = none := by cases task <;> first | rfl | cases htask
  refine ⟨by simpa using hactive, fun c hc => ?_, fun _ => ⟨by simpa using hop, by simpa using hvalid⟩, fun hd => ?_, fun hr => ?_⟩
  · rw [State.loadedFirst_runMaint, hfirst] at hc
    cases hc
  · simp [hdue] at hd
  · simp [hreset] at hr

theorem State.not_due_of_not_copyWork (h : u.copyWork = false) : u.activationDue = false :=
  (Bool.or_eq_false_iff.mp h).1

theorem MaintTask.loadedFirst_of_plain {task : MaintTask} (h : task.plain = true) : task.loadedFirst = none := by
  cases task <;> first | rfl | cases h

theorem MaintTask.not_copy_of_plain {task : MaintTask} (h : task.plain = true) : task.ofCopyWrite = false := by
  cases task <;> first | rfl | cases h

variable (hu : u.configLaw)
include hu

theorem State.configLaw.not_due (hmaint : u.maint ≠ none) : u.activationDue = false := by
  obtain ⟨_, _, _, hdue, _⟩ := hu
  exact Bool.eq_false_iff.mpr fun h => hmaint (hdue h)

theorem State.configLaw.not_inReset (hmaint : u.maint ≠ none) : u.inReset = false := by
  obtain ⟨_, _, _, _, hreset⟩ := hu
  exact Bool.eq_false_iff.mpr fun h => hmaint (hreset h).2

theorem State.configLaw.not_copyWork {o : LongOp} (hop : u.longOp = some o)
    (hcase : o.phase = .waiting ∨ o.kind ≠ .apply) : u.copyWork = false := by
  obtain ⟨_, _, hwork, _⟩ := hu
  refine Bool.eq_false_iff.mpr fun h => ?_
  have hid := (hwork h).1
  simp only [hop, Option.map_some, Option.some.injEq, Prod.mk.injEq] at hid
  obtain hphase | hkind := hcase
  · simp [hphase] at hid
  · exact hkind hid.1

/-- Where an operation can be closed, no activation waits. -/
theorem State.configLaw.closable (h : u.closable) : u.activationDue = false := by
  obtain hmaint | hdue | ⟨o, hop, hcase⟩ := h
  · exact hu.not_due hmaint
  · exact hdue
  · exact State.not_due_of_not_copyWork (hu.not_copyWork hop hcase)

theorem State.configLaw.works (h : u.journalWorks) : u.activationDue = false ∧ u.inReset = false := by
  obtain ⟨task, hmaint, _⟩ | ⟨hreset, _, hclosable⟩ := h
  · have hsome : u.maint ≠ none := by simp [hmaint]
    exact ⟨hu.not_due hsome, hu.not_inReset hsome⟩
  · exact ⟨hu.closable hclosable, hreset⟩

theorem State.configLaw.follows {task : MaintTask} {op : RowOp} (h : Follows u task) :
    (u.runMaint task op).configLaw := by
  have hactive := hu.1
  have hbusy : ∀ {former}, u.maint = some former → u.activationDue = false ∧ u.inReset = false := fun hm =>
    ⟨hu.not_due (by simp [hm]), hu.not_inReset (by simp [hm])⟩
  cases h with
  | load c i rows first hmaint hfirst =>
    obtain ⟨former, hm, _⟩ := hmaint
    obtain ⟨hdue, hreset⟩ := hbusy hm
    exact State.configLaw_runMaint hactive hdue hreset rfl fun r hr => (hfirst r hr).elim (hu.2.1 r) id
  | plain _ htask hworks =>
    obtain ⟨hdue, hreset⟩ := hu.works hworks
    refine State.configLaw_runMaint hactive hdue hreset (MaintTask.not_copy_of_plain htask) fun r hr => ?_
    rw [MaintTask.loadedFirst_of_plain htask] at hr
    cases hr
  | target j hrestoring =>
    obtain ⟨hdue, hreset⟩ := hu.works (State.journalWorks_of_restoring hrestoring)
    exact State.configLaw_runMaint hactive hdue hreset rfl fun r hr => by cases hr
  | image j hworks =>
    obtain ⟨hdue, hreset⟩ := hu.works hworks
    exact State.configLaw_runMaint hactive hdue hreset rfl fun r hr => by cases hr
  | anchor c c' hm =>
    exact State.configLaw_runMaint hactive (hbusy hm).1 (hbusy hm).2 rfl fun r hr => by cases hr
  | scan c hm =>
    exact State.configLaw_runMaint hactive (hbusy hm).1 (hbusy hm).2 rfl fun r hr => by cases hr
  | scanNext k headers accepted header e hm =>
    exact State.configLaw_runMaint hactive (hbusy hm).1 (hbusy hm).2 rfl fun r hr => by cases hr
  | copy _ htask hmaint =>
    obtain ⟨former, hm, hformer⟩ := hmaint
    obtain ⟨hop, hvalid⟩ := hu.2.2.1 (by simp [State.copyWork, hm, hformer])
    exact State.configLaw_runMaint_copy htask hactive (hbusy hm).1 (hbusy hm).2 hop hvalid

/-- The record that an activation adopts passes validation (R161, R172). -/
theorem State.configLaw.adopted {r : ConfigRecord} (hdue : u.activationDue = true)
    (hvalid : u.staging.valid = true → r.valid = true) : r.valid = true ∧ u.maint = none := by
  obtain ⟨_, _, hwork, hwaits, _⟩ := hu
  exact ⟨hvalid (hwork (by simp [State.copyWork, hdue])).2, hwaits hdue⟩

end

theorem State.onMaint.ne_none {u : State} {p : MaintTask → Bool} (h : u.onMaint p) : u.maint ≠ none := by
  obtain ⟨task, hm, _⟩ := h
  simp [hm]

theorem Course.configLaw {s t : State} (h : Course s t) (hs : s.configLaw) : t.configLaw := by
  induction h with
  | refl => exact hs
  | quiet _ hview ih => exact State.configLaw_of_view hview ih
  | empty _ _ ih | build _ _ _ ih | mark _ ih | roll _ _ _ _ _ _ ih => exact ih
  | stage _ _ hkind ih =>
    obtain ⟨hactive, hfirst, hwork, hdue, hreset⟩ := ih
    refine ⟨hactive, hfirst, fun hw => ?_, hdue, hreset⟩
    have hid := congrArg (Option.map Prod.fst) (hwork hw).1
    exact absurd (by simpa [Function.comp_def] using hid) hkind
  | take _ o hnone _ _ ih =>
    obtain ⟨hactive, hfirst, hwork, hdue, hreset⟩ := ih
    refine ⟨hactive, hfirst, fun hw => ?_, hdue, hreset⟩
    have hid := (hwork hw).1
    simp [hnone] at hid
  | close _ _ _ _ hclosable _ _ ih => exact State.configLaw_of_idle ih.1 rfl (ih.closable hclosable)
  | execute _ o _ _ hop hwaiting _ _ _ _ ih =>
    have hno := ih.not_copyWork hop (.inl hwaiting)
    obtain ⟨hactive, hfirst, _, hdue, hreset⟩ := ih
    exact ⟨hactive, hfirst, fun hw => absurd (hno.symm.trans hw) (by simp), hdue, hreset⟩
  | beginCopy _ o task op hop hwaiting hkind hreset hvalid htask ih =>
    have hno := ih.not_copyWork hop (.inl hwaiting)
    refine State.configLaw_runMaint_copy htask ih.1 (State.not_due_of_not_copyWork hno) hreset ?_ hvalid
    simp [hkind]
  | ask _ _ _ hfollows ih => exact ih.follows hfollows
  | due _ hmaint ih =>
    have hreset := ih.not_inReset hmaint.ne_none
    obtain ⟨task, hm, htask⟩ := hmaint
    obtain ⟨hactive, _, hwork, _, _⟩ := ih
    have happly := hwork (by simp [State.copyWork, hm, htask])
    refine ⟨hactive, fun c hc => by simp [State.loadedFirst] at hc, fun _ => happly, fun _ => rfl, fun hr => ?_⟩
    exact absurd (hreset.symm.trans hr) (by simp)
  | adopt _ r hdue _ hvalid _ ih =>
    obtain ⟨hr, hm⟩ := ih.adopted hdue hvalid
    exact State.configLaw_of_idle (fun c hc => Option.some.inj hc ▸ hr) hm rfl
  | adoptEmpty _ r hdue _ hvalid ih =>
    obtain ⟨hr, hm⟩ := ih.adopted hdue hvalid
    exact State.configLaw_of_idle (fun c hc => Option.some.inj hc ▸ hr) hm rfl
  | adoptFormat _ r op c epoch hdue _ hreset hvalid ih =>
    obtain ⟨hr, _⟩ := ih.adopted hdue hvalid
    exact State.configLaw_runMaint (fun c hc => Option.some.inj hc ▸ hr) rfl hreset rfl fun r hr => by cases hr
  | loaded _ active _ _ _ hmaint hactive _ ih =>
    refine State.configLaw_of_idle (fun r hr => ?_) rfl (ih.not_due hmaint.ne_none)
    exact (hactive r hr).elim (ih.1 r) fun h => h.elim (ih.2.1 r) id
  | loadedScan _ r _ _ _ hmaint hvalid _ _ ih =>
    have hr : r.valid = true := hvalid.elim (ih.2.1 r) id
    exact State.configLaw_runMaint (fun c hc => Option.some.inj hc ▸ hr) (ih.not_due hmaint.ne_none)
      (ih.not_inReset hmaint.ne_none) rfl fun r hr => by cases hr
  | start _ _ _ _ _ hreset ih =>
    have hno := (ih.2.2.2.2 hreset).1
    exact State.configLaw_runMaint ih.1 (State.not_due_of_not_copyWork hno) rfl rfl fun r hr => by cases hr
  | drop _ task _ hrestoring htask ih =>
    obtain ⟨hdue, hreset⟩ := ih.works (State.journalWorks_of_restoring hrestoring)
    have hcase : task.ofCopyWrite = false ∧ task.loadedFirst = none := by
      obtain hplain | ⟨⟨j, rfl⟩, _⟩ := htask
      · exact ⟨MaintTask.not_copy_of_plain hplain, MaintTask.loadedFirst_of_plain hplain⟩
      · exact ⟨rfl, rfl⟩
    refine State.configLaw_runMaint (by simpa using ih.1) (by simpa using hdue) (by simpa using hreset) hcase.1
      fun r hr => ?_
    rw [hcase.2] at hr
    cases hr
  | dropClose _ _ hrestoring ih =>
    obtain ⟨hdue, _⟩ := ih.works (State.journalWorks_of_restoring hrestoring)
    exact State.configLaw_of_idle (by simpa [State.closed] using ih.1) rfl (by simpa [State.closed] using hdue)

theorem Asks.configLaw {u t : State} {j : Job} {op : RowOp} (h : Asks u j op t) (hu : u.configLaw) : t.configLaw :=
  State.configLaw_of_view h.view hu

theorem JobMove.configLaw {u t : State} (h : JobMove u t) (hu : u.configLaw) : t.configLaw := by
  cases h with
  | stays hview => exact State.configLaw_of_view hview hu
  | reads _ _ _ hasks => exact hasks.configLaw hu
  | appends _ _ _ _ _ _ _ _ hasks => exact hasks.configLaw hu
  | appendsOn _ _ _ _ _ _ _ _ _ hasks => exact hasks.configLaw hu
  | appendsNext _ _ _ _ _ _ _ _ _ _ _ _ hw _ _ _ hasks => exact hasks.configLaw (hw ▸ hu)
  | writesRecorded _ _ _ _ _ _ _ _ _ _ _ _ _ hasks => exact hasks.configLaw hu
  | writes _ _ _ _ _ _ hasks => exact hasks.configLaw hu
  | writesOn _ _ _ _ _ _ _ hasks => exact hasks.configLaw hu
  | ends hcourse | endsRecorded _ _ _ _ _ _ _ _ _ hcourse => exact hcourse.configLaw hu

theorem exec_configLaw {c : Instr} {s t : State} (he : exec c s = .next t) (hs : s.configLaw) : t.configLaw := by
  have hfreed : ∀ m, (s.freed m).configLaw := fun m => State.configLaw_of_view (s.freed_keeps m) hs
  cases exec_progress he with
  | course h => exact h.configLaw hs
  | taken v _ hview h => exact h.configLaw (State.configLaw_of_view hview hs)
  | front f m _ _ h => exact h.configLaw (hfreed m)
  | maint f m _ _ h => exact h.configLaw (hfreed m)
  | goesOn f g _ _ _ hview => exact State.configLaw_of_view hview hs
  | reset left => exact State.configLaw_of_idle (fun _ h => by cases h) rfl rfl

/-- Settles O8: a record that becomes active has passed validation, and until then the move that leads to it keeps what
that rests on. -/
theorem activeConfigurationStaysValid : Obligations.ActiveConfigurationStaysValid :=
  fun _ _ hs h => step_keeps (fun _ _ => id) exec_configLaw hs h

/-! ## The exclusion of journal work and journaled writes -/

section
variable {u : State}

theorem State.onMaint_map (u : State) (p : MaintTask → Bool) (h : (u.maint.map p).getD false = true) : u.onMaint p :=
  (u.onMaint_iff p).mpr h

theorem State.journaledWriteJob_of_job {t : State} (h : t.job = u.job) : t.journaledWriteJob = u.journaledWriteJob := by
  rw [State.journaledWriteJob_eq, State.journaledWriteJob_eq, h]

theorem State.exclusionLaw_of_view {t : State} (h : t.view = u.view) (hu : u.exclusionLaw) : t.exclusionLaw := by
  unfold State.exclusionLaw at *
  rw [← State.portIdle_iff] at hu ⊢
  rwa [State.view_inReset h, State.view_portIdle h, State.view_job h, State.view_active h, State.view_maint h,
    State.journaledWriteJob_of_job (State.view_job h), State.view_journal h]

/-- A change of the port alone, out of reset. -/
theorem State.exclusionLaw_of_port {t : State} (hreset : u.inReset = false)
    (h : t.view = ({ u with port := t.port, waitFront := t.waitFront } : State).view) (hu : u.exclusionLaw) :
    t.exclusionLaw := by
  refine State.exclusionLaw_of_view h ⟨fun hr => ?_, hu.2⟩
  exact absurd (hreset.symm.trans hr) (by simp)

/-- Nothing is on MAINT, out of reset. -/
theorem State.exclusionLaw_of_idle (hreset : u.inReset = true → u.port = .idle ∧ u.job = none ∧ u.active = none)
    (hmaint : u.maint = none) (hapart : u.journal.executing = true → u.journaledWriteJob = none) : u.exclusionLaw :=
  ⟨hreset, fun h => by simp [hmaint] at h, fun h => by simp [hmaint] at h, hapart⟩

/-- MAINT is asked for a row operation, out of reset. -/
theorem State.exclusionLaw_runMaint {task : MaintTask} {op : RowOp} (hreset : u.inReset = false)
    (hload : task.ofLoad = true → u.active = none ∧ u.journaledWriteJob = none)
    (hjournal : task.ofJournal = true → u.journal.executing = true)
    (hapart : u.journal.executing = true → u.journaledWriteJob = none) : (u.runMaint task op).exclusionLaw := by
  have hjob : (u.runMaint task op).journaledWriteJob = u.journaledWriteJob := State.journaledWriteJob_of_job (by simp)
  refine ⟨fun hr => by simp [hreset] at hr, fun h => ?_, fun h => ?_, fun h => ?_⟩
  · rw [State.runMaint_maint] at h
    simpa [hjob] using hload h
  · rw [State.runMaint_maint] at h
    simpa using hjournal h
  · rw [hjob]
    exact hapart (by simpa using h)

theorem MaintTask.not_load_of_plain {task : MaintTask} (h : task.plain = true) : task.ofLoad = false := by
  cases task <;> first | rfl | cases h

theorem MaintTask.not_load_of_copy {task : MaintTask} (h : task.ofCopyWrite = true) : task.ofLoad = false := by
  cases task <;> first | rfl | cases h

theorem MaintTask.not_journal_of_copy {task : MaintTask} (h : task.ofCopyWrite = true) : task.ofJournal = false := by
  cases task <;> first | rfl | cases h

theorem State.journaledWriteJob_of_no_job (h : u.job = none) : u.journaledWriteJob = none :=
  (State.journaledWriteJob_eq_none_iff u).mpr fun j hj => by simp [h] at hj

theorem State.journaledWriteJob_of_not_in_progress (h : u.journaledJobInProgress = false) :
    u.journaledWriteJob = none := by
  refine (State.journaledWriteJob_eq_none_iff u).mpr fun j hj => ?_
  simp only [State.journaledJobInProgress, hj] at h
  simp [Job.journaledWrite, h]

variable (hu : u.exclusionLaw)
include hu

theorem State.exclusionLaw.executing_of_maint (h : u.onMaint MaintTask.ofJournal) : u.journal.executing = true :=
  hu.2.2.1 ((u.onMaint_iff _).mp h)

theorem State.exclusionLaw.executing_of_works (h : u.journalWorks) : u.journal.executing = true := by
  obtain hmaint | ⟨_, hexecuting, _⟩ := h
  · exact hu.executing_of_maint hmaint
  · exact hexecuting

theorem State.exclusionLaw.no_job_of_maint (h : u.onMaint MaintTask.ofJournal) : u.journaledWriteJob = none :=
  hu.2.2.2 (hu.executing_of_maint h)

theorem State.exclusionLaw.of_load (h : u.onMaint MaintTask.ofLoad) : u.active = none ∧ u.journaledWriteJob = none :=
  hu.2.1 ((u.onMaint_iff _).mp h)

theorem State.exclusionLaw.follows {task : MaintTask} {op : RowOp} (hc : u.configLaw) (h : Follows u task) :
    (u.runMaint task op).exclusionLaw := by
  have hreset : u.inReset = false := by
    simpa using (hc.follows (op := op) h).not_inReset (by simp)
  have hapart := hu.2.2.2
  have hworks : ∀ {former}, u.maint = some former → former.ofJournal = true → u.journal.executing = true :=
    fun hm hf => hu.executing_of_maint ⟨_, hm, hf⟩
  cases h with
  | load c i rows first hmaint =>
    exact State.exclusionLaw_runMaint hreset (fun _ => hu.of_load hmaint) (fun h => by cases h) hapart
  | plain _ htask hw =>
    exact State.exclusionLaw_runMaint hreset (fun h => absurd ((MaintTask.not_load_of_plain htask).symm.trans h) (by simp))
      (fun _ => hu.executing_of_works hw) hapart
  | target j hrestoring =>
    exact State.exclusionLaw_runMaint hreset (fun h => by cases h)
      (fun _ => hu.executing_of_works (State.journalWorks_of_restoring hrestoring)) hapart
  | image j hw =>
    exact State.exclusionLaw_runMaint hreset (fun h => by cases h) (fun _ => hu.executing_of_works hw) hapart
  | anchor c c' hm => exact State.exclusionLaw_runMaint hreset (fun h => by cases h) (fun _ => hworks hm rfl) hapart
  | scan c hm => exact State.exclusionLaw_runMaint hreset (fun h => by cases h) (fun _ => hworks hm rfl) hapart
  | scanNext k headers accepted header e hm =>
    exact State.exclusionLaw_runMaint hreset (fun h => by cases h) (fun _ => hworks hm rfl) hapart
  | copy _ htask =>
    exact State.exclusionLaw_runMaint hreset (fun h => absurd ((MaintTask.not_load_of_copy htask).symm.trans h) (by simp))
      (fun h => absurd ((MaintTask.not_journal_of_copy htask).symm.trans h) (by simp)) hapart

end

/-- Taking an operation makes no journal state an executing one (R45). -/
theorem State.journalTaken_executing (u : State) : u.journalTaken.executing = u.journal.executing := by
  unfold State.journalTaken
  split
  · next h => rw [h]; rfl
  · rfl

theorem Course.exclusionLaw {s t : State} (h : Course s t) (hc : s.configLaw) (hs : s.exclusionLaw) :
    t.exclusionLaw := by
  induction h with
  | refl => exact hs
  | quiet _ hview ih => exact State.exclusionLaw_of_view hview ih
  | stage _ _ _ ih | empty _ _ ih | build _ _ _ ih | mark _ ih => exact ih
  | take _ _ _ _ _ ih =>
    obtain ⟨hreset, hload, hjournal, hapart⟩ := ih
    refine ⟨hreset, hload, fun h => ?_, fun h => hapart ?_⟩
    · exact (State.journalTaken_executing _).trans (hjournal h)
    · exact (State.journalTaken_executing _).symm.trans h
  | close _ journal _ _ _ hjournal _ ih =>
    obtain ⟨hreset, _, _, hapart⟩ := ih
    refine State.exclusionLaw_of_idle hreset rfl fun h => ?_
    obtain hno | rfl := hjournal
    · exact absurd (hno.symm.trans h) (by simp)
    · exact hapart h
  | execute _ o journal _ _ _ hreset hjob hjournal _ ih =>
    obtain ⟨_, hload, hexecuting, _⟩ := ih
    refine ⟨fun hr => absurd (hreset.symm.trans hr) (by simp), hload, fun h => ?_,
      fun _ => State.journaledWriteJob_of_not_in_progress hjob⟩
    obtain hyes | rfl := hjournal
    · exact hyes
    · exact hexecuting h
  | beginCopy _ o task op _ _ _ hreset _ htask ih =>
    exact State.exclusionLaw_runMaint hreset (fun h => absurd ((MaintTask.not_load_of_copy htask).symm.trans h) (by simp))
      (fun h => absurd ((MaintTask.not_journal_of_copy htask).symm.trans h) (by simp)) ih.2.2.2
  | ask hcourse _ _ hfollows ih => exact ih.follows (hcourse.configLaw hc) hfollows
  | due _ _ ih => exact State.exclusionLaw_of_idle ih.1 rfl ih.2.2.2
  | adopt hcourse r hdue _ hvalid _ ih | adoptEmpty hcourse r hdue _ hvalid ih =>
    have hconfig := hcourse.configLaw hc
    have hmaint := (hconfig.adopted hdue hvalid).2
    refine State.exclusionLaw_of_idle (fun hr => ?_) hmaint ih.2.2.2
    have hno := State.not_due_of_not_copyWork (hconfig.2.2.2.2 hr).1
    exact absurd (hdue.symm.trans hno) (by simp)
  | adoptFormat _ _ _ _ _ _ hjob hreset _ _ =>
    exact State.exclusionLaw_runMaint hreset (fun h => by cases h) (fun _ => rfl)
      (fun _ => State.journaledWriteJob_of_no_job hjob)
  | loaded hcourse _ _ _ _ hmaint _ hlatch ih =>
    have hreset := (hcourse.configLaw hc).not_inReset hmaint.ne_none
    refine State.exclusionLaw_of_idle (fun hr => absurd (hreset.symm.trans hr) (by simp)) rfl fun h => ?_
    cases hlatch with
    | same => exact ih.2.2.2 h
    | taken => cases h
  | loadedScan hcourse _ _ _ _ hmaint _ _ _ ih =>
    have hjob := (ih.of_load hmaint).2
    exact State.exclusionLaw_runMaint ((hcourse.configLaw hc).not_inReset hmaint.ne_none) (fun h => by cases h)
      (fun _ => rfl) fun _ => hjob
  | start _ _ _ _ _ hreset ih =>
    obtain ⟨_, hjob, hactive⟩ := ih.1 hreset
    exact State.exclusionLaw_runMaint rfl (fun _ => ⟨hactive, State.journaledWriteJob_of_no_job hjob⟩)
      (fun h => by cases h) ih.2.2.2
  | roll _ _ _ _ hmaint _ ih =>
    have hjob := ih.no_job_of_maint ⟨_, hmaint, rfl⟩
    exact ⟨ih.1, ih.2.1, fun _ => rfl, fun _ => hjob⟩
  | drop hcourse task _ hrestoring htask ih =>
    have hworks := State.journalWorks_of_restoring hrestoring
    have hexecuting := ih.executing_of_works hworks
    have hload : task.ofLoad = false := by
      obtain hplain | ⟨⟨j, rfl⟩, _⟩ := htask
      · exact MaintTask.not_load_of_plain hplain
      · rfl
    refine State.exclusionLaw_runMaint (by simpa using ((hcourse.configLaw hc).works hworks).2)
      (fun h => absurd (hload.symm.trans h) (by simp)) (fun _ => by simpa using hexecuting) fun _ => ?_
    exact (State.journaledWriteJob_of_job (by simp)).trans (ih.2.2.2 hexecuting)
  | dropClose _ _ _ ih =>
    refine State.exclusionLaw_of_idle (fun hr => ?_) rfl fun h => by cases h
    simpa [State.closed] using ih.1 (by simpa [State.closed] using hr)

/-! ## The Row Engine -/

/-- What a job must be for the exclusion to hold while it is in progress. -/
structure ApartFrom (u : State) (j : Job) : Prop where
  outOfReset : u.inReset = false
  load : u.onMaint MaintTask.ofLoad → j.journaledWrite = false
  executing : u.journal.executing = true → j.journaledWrite = false

theorem ApartFrom.phase {u : State} {j : Job} (h : ApartFrom u j) (phase : JobPhase) :
    ApartFrom u { j with phase := phase } :=
  ⟨h.outOfReset, h.load, h.executing⟩

theorem ApartFrom.record {u : State} {j : Job} (h : ApartFrom u j) (row : Nat) (side : Half) (header : SlotHeader) :
    ApartFrom (u.addRecord row side header) j :=
  ⟨h.outOfReset, h.load, h.executing⟩

theorem State.exclusionLaw.current {u : State} {j : Job} (hu : u.exclusionLaw) (hjob : u.job = some j) :
    ApartFrom u j where
  outOfReset := Bool.eq_false_iff.mpr fun hr => by simp [(hu.1 hr).2.1] at hjob
  load h := (State.journaledWriteJob_eq_none_iff u).mp (hu.of_load h).2 j hjob
  executing h := (State.journaledWriteJob_eq_none_iff u).mp (hu.2.2.2 h) j hjob

theorem State.exclusionLaw.reads {u : State} {j : Job} (hu : u.exclusionLaw) (h : Reads u j) : ApartFrom u j := by
  cases h with
  | current k i hjob _ hwork =>
    obtain ⟨hreset, hload, hexecuting⟩ := hu.current hjob
    have hsame := Job.journaledWrite_of_work hwork
    exact ⟨hreset, fun h => hsame.trans (hload h), fun h => hsame.trans (hexecuting h)⟩
  | taken _ hreset hfit =>
    refine ⟨hreset, fun h => ?_, fun h => ?_⟩
    · exact Bool.eq_false_iff.mpr fun hj => hfit.configured hj (hu.of_load h).1
    · exact Bool.eq_false_iff.mpr fun hj => absurd ((hfit.apart hj).symm.trans h) (by simp)

theorem Asks.exclusionLaw {u t : State} {j : Job} {op : RowOp} (h : Asks u j op t) (hj : ApartFrom u j)
    (hu : u.exclusionLaw) : t.exclusionLaw := by
  have hjob : j.journaledWrite = false → ({ u with job := some j } : State).journaledWriteJob = none := fun hno =>
    (State.journaledWriteJob_eq_none_iff _).mpr fun k hk => Option.some.inj hk ▸ hno
  refine State.exclusionLaw_of_port (u := { u with job := some j }) hj.outOfReset h.view ?_
  refine ⟨fun hr => absurd (hj.outOfReset.symm.trans hr) (by simp), fun hl => ?_, hu.2.2.1, fun he => ?_⟩
  · have hload := State.onMaint_map u _ hl
    exact ⟨(hu.of_load hload).1, hjob (hj.load hload)⟩
  · exact hjob (hj.executing he)

/-- Without its job the state is as exclusive. -/
theorem State.exclusionLaw.withoutJob {u : State} (hu : u.exclusionLaw) :
    ({ u with job := none } : State).exclusionLaw :=
  ⟨fun hr => ⟨(hu.1 hr).1, rfl, (hu.1 hr).2.2⟩, fun hl => ⟨(hu.2.1 hl).1, rfl⟩, hu.2.2.1, fun _ => rfl⟩

theorem JobMove.exclusionLaw {u t : State} (h : JobMove u t) (hc : u.configLaw) (hu : u.exclusionLaw) :
    t.exclusionLaw := by
  cases h with
  | stays hview => exact State.exclusionLaw_of_view hview hu
  | reads _ _ hreads hasks => exact hasks.exclusionLaw ((hu.reads hreads).phase _) hu
  | appends _ _ _ _ _ hreads _ _ hasks => exact hasks.exclusionLaw ((hu.reads hreads).phase _) hu
  | writes _ _ _ hreads _ _ hasks => exact hasks.exclusionLaw ((hu.reads hreads).phase _) hu
  | appendsOn _ _ _ _ _ _ _ hjob _ hasks => exact hasks.exclusionLaw ((hu.current hjob).phase _) hu
  | appendsNext _ _ _ _ _ _ _ _ _ _ _ _ hw hjob _ _ hasks =>
    subst hw
    exact hasks.exclusionLaw (((hu.current hjob).phase _).record _ _ _) hu
  | writesRecorded _ _ _ _ _ _ _ _ _ hjob _ _ _ hasks =>
    exact hasks.exclusionLaw (((hu.current hjob).phase _).record _ _ _) hu
  | writesOn _ _ _ _ hjob _ _ hasks => exact hasks.exclusionLaw ((hu.current hjob).phase _) hu
  | ends hcourse => exact hcourse.exclusionLaw hc hu.withoutJob
  | endsRecorded _ _ _ _ _ _ _ _ _ hcourse => exact hcourse.exclusionLaw hc hu.withoutJob

/-- While the port carries an operation the part is out of reset. -/
theorem State.exclusionLaw.carries {s : State} {f : Flight} (hs : s.exclusionLaw) (h : s.carries f) :
    s.inReset = false := by
  refine Bool.eq_false_iff.mpr fun hr => ?_
  have hidle := (hs.1 hr).1
  obtain hp | hp := h <;> simp [hidle] at hp

theorem exec_exclusionLaw {c : Instr} {s t : State} (he : exec c s = .next t) (hc : s.configLaw) (hs : s.exclusionLaw) :
    t.exclusionLaw := by
  have hconfig : ∀ m, (s.freed m).configLaw := fun m => State.configLaw_of_view (s.freed_keeps m) hc
  have hfreed : ∀ m f, s.carries f → (s.freed m).exclusionLaw := fun m f hf =>
    State.exclusionLaw_of_port (hs.carries hf) (s.freed_keeps m) hs
  cases exec_progress he with
  | course h => exact h.exclusionLaw hc hs
  | taken v _ hview h =>
    exact h.exclusionLaw (State.configLaw_of_view hview hc) (State.exclusionLaw_of_view hview hs)
  | front f m hport _ h => exact h.exclusionLaw (hconfig m) (hfreed m f hport)
  | maint f m hport _ h => exact h.exclusionLaw (hconfig m) (hfreed m f hport)
  | goesOn f g hport _ _ hview =>
    refine State.exclusionLaw_of_view hview ⟨fun hr => ?_, hs.2⟩
    exact absurd ((hs.carries hport).symm.trans hr) (by simp)
  | reset left => exact State.exclusionLaw_of_idle (fun _ => ⟨rfl, rfl, rfl⟩) rfl fun h => by cases h

/-- Settles O10: no move starts the journal's own work while a journaled write job is in progress, and none takes such a
job while the journal works. -/
theorem journalWorkExcludesJournaledWrites : Obligations.JournalWorkExcludesJournaledWrites := by
  intro s t hc hs h
  have hboth := step_keeps (P := fun s => s.configLaw ∧ s.exclusionLaw) (fun _ _ => id)
    (fun he h => ⟨exec_configLaw he h.1, exec_exclusionLaw he h.1 h.2⟩) ⟨hc, hs⟩ h
  exact hboth.2

end Sys2Proof.Machine

/-! SUPPORT. The law of the tail (R14, R19, R22, R79), kept by every move. -/
namespace Sys2Proof.Machine

set_option Elab.async false

/-! ## The parts of the law -/

/-- The slot table has no more slots than the journal, each with its header beside it (R14, R22). -/
def TableFits (slots : List SlotEntry) (headers : List SlotHeader) (n : Nat) : Prop :=
  slots.length ≤ n ∧ headers.length = slots.length

/-- Only a journaled write job needs records (R134). -/
def Job.recordsFit (j : Job) : Prop := ∀ r ∈ j.rows, r.needsRecord = true → j.journaledWrite = true

/-- An append has its slot in the journal, and slots for every record that its job has yet to append (R19). -/
def Job.appendFits (j : Job) (tail n : Nat) : Prop :=
  ∀ i slot sequence step, j.phase = .appending i slot sequence step →
    j.journaledWrite = true ∧ slot < n ∧ tail + 1 + ((j.rows.drop (i + 1)).filter JobRow.needsRecord).length ≤ n

/-- The job in progress, if any, fits. -/
def State.jobFits (u : State) : Prop :=
  ∀ j, u.job = some j → j.recordsFit ∧ j.appendFits u.tail u.nSlots.toNat

/-- The scan reads in a journal that has slots, and has accepted exactly those below the one it reads (R79). -/
def ScanFits (maint : Option MaintTask) (n : Nat) : Prop :=
  (∀ c, maint = some (.anchorRead c) → 0 < n)
    ∧ ∀ k headers accepted, maint = some (.scanHeader k headers accepted) →
        accepted.length = k ∧ headers.length = k ∧ k < n

theorem State.tailLaw_iff (u : State) : u.tailLaw ↔ TableFits u.slots u.slotHeaders u.nSlots.toNat ∧ u.jobFits
    ∧ ScanFits u.maint u.nSlots.toNat := by
  have hjob : ∀ j, u.job = some j → (u.journaledWriteJob = some j ↔ j.journaledWrite = true) := fun j hj => by
    rw [State.journaledWriteJob_eq_some_iff]
    exact ⟨And.right, fun h => ⟨hj, h⟩⟩
  constructor
  · rintro ⟨htail, hheaders, hrecords, happend, hanchor, hscan⟩
    refine ⟨⟨htail, hheaders⟩, fun j hj => ⟨fun r hr hneeds => ?_, fun i slot sequence step hphase => ?_⟩, hanchor, hscan⟩
    · exact (hjob j hj).mp (hrecords j hj r hr hneeds)
    · obtain ⟨hjw, hslot, hroom⟩ := happend j i slot sequence step hj hphase
      exact ⟨(hjob j hj).mp hjw, hslot, hroom⟩
  · rintro ⟨⟨htail, hheaders⟩, hfits, hanchor, hscan⟩
    refine ⟨htail, hheaders, fun j hj r hr hneeds => ?_, fun j i slot sequence step hj hphase => ?_, hanchor, hscan⟩
    · exact (hjob j hj).mpr ((hfits j hj).1 r hr hneeds)
    · obtain ⟨hjw, hslot, hroom⟩ := (hfits j hj).2 i slot sequence step hphase
      exact ⟨(hjob j hj).mpr hjw, hslot, hroom⟩

theorem TableFits.empty (n : Nat) : TableFits [] [] n := ⟨Nat.zero_le _, rfl⟩

theorem ScanFits.idle (n : Nat) : ScanFits none n := ⟨fun _ h => by (cases h), fun _ _ _ h => by (cases h)⟩

/-- A task that is none of the scan. -/
def MaintTask.outsideScan : MaintTask → Bool
  | .anchorRead _ => false
  | .scanHeader _ _ _ => false
  | _ => true

theorem ScanFits.outside {task : MaintTask} (h : task.outsideScan = true) (n : Nat) : ScanFits (some task) n := by
  refine ⟨fun c hc => ?_, fun k headers accepted hc => ?_⟩ <;> (cases hc; cases h)

theorem MaintTask.outsideScan_of_plain {task : MaintTask} (h : task.plain = true) : task.outsideScan = true := by
  cases task <;> first | rfl | cases h

theorem MaintTask.outsideScan_of_copy {task : MaintTask} (h : task.ofCopyWrite = true) : task.outsideScan = true := by
  cases task <;> first | rfl | cases h

theorem Follows.scanFits {u : State} {task : MaintTask} (h : Follows u task) (hu : ScanFits u.maint u.nSlots.toNat) :
    ScanFits (some task) u.nSlots.toNat := by
  have hanchor : ∀ c, u.maint = some (.anchorRead c) → 0 < u.nSlots.toNat := hu.1
  cases h with
  | load | target | image => exact ScanFits.outside rfl _
  | plain _ htask => exact ScanFits.outside (MaintTask.outsideScan_of_plain htask) _
  | copy _ htask => exact ScanFits.outside (MaintTask.outsideScan_of_copy htask) _
  | anchor c c' hm => exact ⟨fun _ _ => hanchor c hm, fun _ _ _ h => by (cases h)⟩
  | scan c hm =>
    refine ⟨fun _ h => by (cases h), fun k headers accepted h => ?_⟩
    cases h
    exact ⟨rfl, rfl, hanchor c hm⟩
  | scanNext k headers accepted header e hm _ hk =>
    obtain ⟨haccepted, hheaders, _⟩ := hu.2 k headers accepted hm
    refine ⟨fun _ h => by (cases h), fun k' headers' accepted' h => ?_⟩
    cases h
    exact ⟨by simp [haccepted], by simp [hheaders], hk⟩

section
variable {u t : State}

theorem State.jobFits_of_no_job (h : u.job = none) : u.jobFits := fun j hj => by simp [h] at hj

/-- Less in the tables leaves more room. -/
theorem State.jobFits.mono (hu : u.jobFits) (hjob : t.job = u.job) (htail : t.tail ≤ u.tail)
    (hslots : t.nSlots = u.nSlots) : t.jobFits := by
  intro j hj
  obtain ⟨hrecords, happend⟩ := hu j (hjob.symm.trans hj)
  refine ⟨hrecords, fun i slot sequence step hphase => ?_⟩
  obtain ⟨hjw, hslot, hroom⟩ := happend i slot sequence step hphase
  rw [hslots]
  exact ⟨hjw, hslot, by omega⟩

/-- Without a journaled write job nothing is appended. -/
theorem State.jobFits.unrecorded (hu : u.jobFits) (hno : u.journaledWriteJob = none) (hjob : t.job = u.job) :
    t.jobFits := by
  intro j hj
  have hj' := hjob.symm.trans hj
  obtain ⟨hrecords, happend⟩ := hu j hj'
  refine ⟨hrecords, fun i slot sequence step hphase => ?_⟩
  have hjw := (happend i slot sequence step hphase).1
  exact absurd (((State.journaledWriteJob_eq_none_iff u).mp hno j hj').symm.trans hjw) (by simp)

theorem State.tailLaw_of_view (h : t.view = u.view) (hu : u.tailLaw) : t.tailLaw := by
  have hslots : t.nSlots = u.nSlots := by rw [State.nSlots, State.view_active h, State.nSlots]
  rw [State.tailLaw_iff] at hu ⊢
  obtain ⟨htable, hjob, hscan⟩ := hu
  refine ⟨?_, hjob.mono (State.view_job h) ?_ hslots, ?_⟩
  · rwa [State.view_slots h, State.view_slotHeaders h, hslots]
  · rw [State.tail, State.view_slots h, State.tail]
  · rwa [State.view_maint h, hslots]

theorem State.nSlots_runMaint (u : State) (task : MaintTask) (op : RowOp) : (u.runMaint task op).nSlots = u.nSlots := by
  simp [State.nSlots]

/-- MAINT is asked for a row operation. -/
theorem State.tailLaw_runMaint {task : MaintTask} {op : RowOp} (htable : TableFits u.slots u.slotHeaders u.nSlots.toNat)
    (hjob : u.jobFits) (hscan : ScanFits (some task) u.nSlots.toNat) : (u.runMaint task op).tailLaw := by
  rw [State.tailLaw_iff, State.nSlots_runMaint, State.runMaint_maint]
  exact ⟨by simpa using htable, hjob.mono (by simp) (by simp [State.tail]) (State.nSlots_runMaint _ _ _), hscan⟩

theorem State.tailLaw_of_idle (htable : TableFits u.slots u.slotHeaders u.nSlots.toNat) (hjob : u.jobFits)
    (hmaint : u.maint = none) : u.tailLaw :=
  (State.tailLaw_iff u).mpr ⟨htable, hjob, hmaint ▸ ScanFits.idle _⟩

theorem ScanTaken.fits {headers hs : List SlotHeader} {accepted es : List SlotEntry} {k n : Nat}
    (h : ScanTaken headers accepted hs es) (haccepted : accepted.length = k) (hheaders : headers.length = k)
    (hk : k < n) : TableFits es hs n := by
  cases h with
  | these => exact ⟨by omega, by omega⟩
  | andLast header e =>
    simp only [TableFits, List.length_append, List.length_singleton]
    omega

theorem State.dropRecord_tableFits {n : Nat} (h : TableFits u.slots u.slotHeaders n) :
    TableFits u.dropRecord.slots u.dropRecord.slotHeaders n := by
  obtain ⟨hslots, hheaders⟩ := h
  unfold State.dropRecord
  split
  · exact ⟨hslots, hheaders⟩
  · simp only [TableFits, List.length_dropLast]
    omega

/-- While the configuration is loading no slot is occupied. -/
theorem State.slots_of_load (he : u.exclusionLaw) (hmaint : u.onMaint MaintTask.ofLoad)
    (htable : TableFits u.slots u.slotHeaders u.nSlots.toNat) (n : Nat) : TableFits u.slots u.slotHeaders n := by
  obtain ⟨hslots, hheaders⟩ := htable
  simp only [State.nSlots, (he.of_load hmaint).1, Option.map_none, Option.getD_none, BitVec.toNat_ofNat] at hslots
  exact ⟨by omega, hheaders⟩

end

theorem Course.tailLaw {s t : State} (h : Course s t) (hc : s.configLaw) (he : s.exclusionLaw) (hs : s.tailLaw) :
    t.tailLaw := by
  induction h with
  | refl => exact hs
  | quiet _ hview ih => exact State.tailLaw_of_view hview ih
  | stage _ _ _ ih | take _ _ _ _ _ ih | execute _ _ _ _ _ _ _ _ _ _ ih | mark _ ih | roll _ _ _ _ _ _ ih => exact ih
  | close _ _ _ _ _ _ _ ih | due _ _ ih =>
    obtain ⟨htable, hjob, _⟩ := (State.tailLaw_iff _).mp ih
    exact State.tailLaw_of_idle htable hjob rfl
  | beginCopy _ _ _ _ _ _ _ _ _ htask ih =>
    obtain ⟨htable, hjob, _⟩ := (State.tailLaw_iff _).mp ih
    refine State.tailLaw_runMaint ?_ ?_ (ScanFits.outside (MaintTask.outsideScan_of_copy htask) _)
    · exact htable
    · exact hjob
  | ask _ _ _ hfollows ih =>
    obtain ⟨htable, hjob, hscan⟩ := (State.tailLaw_iff _).mp ih
    exact State.tailLaw_runMaint htable hjob (hfollows.scanFits hscan)
  | adopt hcourse r hdue hjob hvalid hslots ih =>
    obtain ⟨htable, _, _⟩ := (State.tailLaw_iff _).mp ih
    refine State.tailLaw_of_idle ?_ (State.jobFits_of_no_job hjob) ((hcourse.configLaw hc).adopted hdue hvalid).2
    show TableFits _ _ r.nSlots.toNat
    rw [hslots]
    exact htable
  | adoptEmpty hcourse r hdue hjob hvalid ih =>
    exact State.tailLaw_of_idle (TableFits.empty _) (State.jobFits_of_no_job hjob)
      ((hcourse.configLaw hc).adopted hdue hvalid).2
  | adoptFormat _ _ _ _ _ _ hjob =>
    exact State.tailLaw_runMaint (TableFits.empty _) (State.jobFits_of_no_job hjob) (ScanFits.outside rfl _)
  | loaded hcourse _ _ _ _ hmaint _ _ ih =>
    obtain ⟨htable, hjob, _⟩ := (State.tailLaw_iff _).mp ih
    have hexclusion := hcourse.exclusionLaw hc he
    refine State.tailLaw_of_idle (State.slots_of_load hexclusion hmaint htable _) ?_ rfl
    exact hjob.unrecorded (hexclusion.of_load hmaint).2 rfl
  | loadedScan hcourse r o c op hmaint _ hslots _ ih =>
    obtain ⟨htable, hjob, _⟩ := (State.tailLaw_iff _).mp ih
    have hexclusion := hcourse.exclusionLaw hc he
    have hpos : 0 < r.nSlots.toNat :=
      Nat.pos_of_ne_zero fun h => hslots (BitVec.eq_of_toNat_eq (by simpa using h))
    refine State.tailLaw_runMaint ?_ ?_ ⟨fun _ _ => hpos, fun _ _ _ h => by (cases h)⟩
    · exact State.slots_of_load hexclusion hmaint htable _
    · exact hjob.unrecorded (hexclusion.of_load hmaint).2 rfl
  | start _ _ _ _ _ _ ih =>
    obtain ⟨htable, hjob, _⟩ := (State.tailLaw_iff _).mp ih
    refine State.tailLaw_runMaint ?_ ?_ (ScanFits.outside rfl _)
    · exact htable
    · exact hjob
  | empty _ _ ih =>
    obtain ⟨_, hjob, hscan⟩ := (State.tailLaw_iff _).mp ih
    exact (State.tailLaw_iff _).mpr ⟨TableFits.empty _, hjob.mono rfl (Nat.zero_le _) rfl, hscan⟩
  | build hcourse hmaint htaken ih =>
    obtain ⟨_, hjob, hscan⟩ := (State.tailLaw_iff _).mp ih
    obtain ⟨haccepted, hheaders, hk⟩ := hscan.2 _ _ _ hmaint
    have hno := (hcourse.exclusionLaw hc he).no_job_of_maint ⟨_, hmaint, rfl⟩
    exact (State.tailLaw_iff _).mpr ⟨htaken.fits haccepted hheaders hk, hjob.unrecorded hno rfl, hscan⟩
  | @drop u _ task _ hrestoring htask ih =>
    obtain ⟨htable, hjob, _⟩ := (State.tailLaw_iff _).mp ih
    have hslots : u.dropRecord.nSlots = u.nSlots := by simp [State.nSlots]
    have houtside : task.outsideScan = true := by
      obtain hplain | ⟨⟨j, rfl⟩, _⟩ := htask
      · exact MaintTask.outsideScan_of_plain hplain
      · rfl
    refine State.tailLaw_runMaint ?_ ?_ (ScanFits.outside houtside _)
    · exact hslots ▸ State.dropRecord_tableFits htable
    · exact hjob.mono (by simp) (by rw [State.dropRecord_tail]; omega) hslots
  | @dropClose u _ _ hrestoring ih =>
    obtain ⟨htable, hjob, _⟩ := (State.tailLaw_iff _).mp ih
    have hslots : u.dropRecord.nSlots = u.nSlots := by simp [State.nSlots]
    refine State.tailLaw_of_idle ?_ ?_ rfl
    · exact hslots ▸ State.dropRecord_tableFits htable
    · refine hjob.mono (by simp [State.closed]) ?_ hslots
      exact (State.dropRecord_tail u).le.trans (Nat.sub_le _ _)

/-! ## The Row Engine -/

/-- The rows that need a record, from a row that is the first of them, are that one and those after it. -/
theorem filter_length_of_nextRow {p : JobRow → Bool} {rows : List JobRow} {i k : Nat} (h : nextRow p rows i = some k) :
    ((rows.drop i).filter p).length = 1 + ((rows.drop (k + 1)).filter p).length := by
  obtain ⟨hik, ⟨q, hq, hp⟩, hbefore⟩ := (nextRow_eq_some_iff p rows i k).mp h
  obtain ⟨d, rfl⟩ := Nat.exists_eq_add_of_le hik
  have hsplit : rows.drop i = (rows.drop i).take d ++ q :: rows.drop (i + d + 1) := by
    have hdrop : (rows.drop i).drop d = q :: rows.drop (i + d + 1) := by
      rw [List.drop_drop, List.drop_eq_getElem?_toList_append, hq]
      rfl
    rw [← hdrop, List.take_append_drop]
  have hnone : ((rows.drop i).take d).filter p = [] := by
    rw [List.filter_eq_nil_iff]
    intro r hr
    obtain ⟨m, hm⟩ := List.mem_iff_getElem?.mp hr
    rw [List.getElem?_take] at hm
    split at hm
    · next hmd =>
      rw [List.getElem?_drop] at hm
      simpa using hbefore (i + m) r (by omega) (by omega) hm
    · cases hm
  rw [hsplit, List.filter_append, hnone, List.nil_append, List.filter_cons_of_pos hp, List.length_cons, Nat.add_comm]

theorem Job.recordsFit_of_work {j k : Job} (h : j.work = k.work) (hk : k.recordsFit) : j.recordsFit := by
  intro r hr hneeds
  obtain ⟨i, hi⟩ := List.mem_iff_getElem?.mp hr
  obtain ⟨q, hq, hwork⟩ := Job.row_of_work h hi
  simp only [JobRow.work, Prod.mk.injEq] at hwork
  rw [Job.journaledWrite_of_work h]
  exact hk q (List.mem_of_getElem? hq) (hwork.2.2.trans hneeds)

section
variable {u t : State} {j : Job}

theorem Reads.recordsFit (h : Reads u j) (hu : u.jobFits) : j.recordsFit := by
  cases h with
  | current k i hjob _ hwork => exact Job.recordsFit_of_work hwork (hu k hjob).1
  | taken _ _ hfit => exact hfit.records

theorem Asks.tailLaw {op : RowOp} (h : Asks u j op t) (htable : TableFits u.slots u.slotHeaders u.nSlots.toNat)
    (hrecords : j.recordsFit) (happend : j.appendFits u.tail u.nSlots.toNat) (hscan : ScanFits u.maint u.nSlots.toNat) :
    t.tailLaw := by
  refine State.tailLaw_of_view h.view ((State.tailLaw_iff _).mpr ⟨htable, fun k hk => ?_, hscan⟩)
  obtain rfl := Option.some.inj hk
  exact ⟨hrecords, happend⟩

/-- A job that appends nothing has nothing to reserve. -/
theorem Job.appendFits_of_phase {tail n : Nat} (h : ∀ i slot sequence step, j.phase ≠ .appending i slot sequence step) :
    j.appendFits tail n := fun i slot sequence step hphase => absurd hphase (h i slot sequence step)

/-- The append of the first row that needs a record fits a journal with room for them all (R19). -/
theorem Job.appendFits_first {i tail n m : Nat} {sequence : Word} {step : AppendStep} (hrecords : j.recordsFit)
    (hnext : nextRow JobRow.needsRecord j.rows m = some i)
    (hroom : tail + ((j.rows.drop m).filter JobRow.needsRecord).length ≤ n) :
    Job.appendFits { j with phase := .appending i tail sequence step } tail n := by
  have hcount := filter_length_of_nextRow hnext
  obtain ⟨_, ⟨q, hq, hneeds⟩, _⟩ := (nextRow_eq_some_iff _ _ _ _).mp hnext
  intro i' slot' sequence' step' hphase
  obtain ⟨rfl, rfl, _, _⟩ := JobPhase.appending.inj hphase
  have hrest : tail + 1 + ((j.rows.drop (i + 1)).filter JobRow.needsRecord).length ≤ n := by omega
  exact ⟨hrecords q (List.mem_of_getElem? hq) hneeds, by omega, hrest⟩

/-- A record that joins the table keeps it within the journal, when an append has reserved its slot. -/
theorem TableFits.append {slots : List SlotEntry} {headers : List SlotHeader} {n : Nat} (h : TableFits slots headers n)
    (hroom : slots.length + 1 ≤ n) (e : SlotEntry) (header : SlotHeader) :
    TableFits (slots ++ [e]) (headers ++ [header]) n := by
  obtain ⟨_, hheaders⟩ := h
  simp only [TableFits, List.length_append, List.length_singleton]
  omega

theorem State.addRecord_tail (u : State) (row : Nat) (side : Half) (header : SlotHeader) :
    (u.addRecord row side header).tail = u.tail + 1 := by
  simp [State.addRecord, State.tail]

end

theorem JobMove.tailLaw {u t : State} (h : JobMove u t) (hc : u.configLaw) (he : u.exclusionLaw) (hu : u.tailLaw) :
    t.tailLaw := by
  obtain ⟨htable, hjobs, hscan⟩ := (State.tailLaw_iff u).mp hu
  have hwithout : TableFits u.slots u.slotHeaders u.nSlots.toNat → ({ u with job := none } : State).tailLaw := fun h =>
    (State.tailLaw_iff _).mpr ⟨h, State.jobFits_of_no_job rfl, hscan⟩
  have hrecorded : ∀ {j i slot former last side header}, u.job = some j → j.phase = .appending i slot former last →
      TableFits (u.addRecord (j.rowNumber i) side header).slots (u.addRecord (j.rowNumber i) side header).slotHeaders
        u.nSlots.toNat := fun hjob hphase => by
    obtain ⟨_, _, hroom⟩ := (hjobs _ hjob).2 _ _ _ _ hphase
    rw [State.tail] at hroom
    exact htable.append (by omega) _ _
  cases h with
  | stays hview => exact State.tailLaw_of_view hview hu
  | reads j _ hreads hasks =>
    exact hasks.tailLaw htable (hreads.recordsFit hjobs) (Job.appendFits_of_phase (by simp)) hscan
  | appends j i sequence step _ hreads hfirst hroom hasks =>
    have hrecords := hreads.recordsFit hjobs
    exact hasks.tailLaw htable hrecords (Job.appendFits_first hrecords hfirst hroom) hscan
  | appendsOn j i slot sequence former step _ hjob hphase hasks =>
    obtain ⟨hrecords, happend⟩ := hjobs j hjob
    refine hasks.tailLaw htable hrecords (fun i' slot' sequence' step' hphase' => ?_) hscan
    obtain ⟨rfl, rfl, _, _⟩ := JobPhase.appending.inj hphase'
    exact happend i slot sequence former hphase
  | appendsNext j i k slot former sequence last step _ side header w hw hjob hphase hnext hasks =>
    subst hw
    obtain ⟨hrecords, happend⟩ := hjobs j hjob
    obtain ⟨_, _, hroom⟩ := happend _ _ _ _ hphase
    refine hasks.tailLaw (hrecorded hjob hphase) hrecords (Job.appendFits_first hrecords hnext ?_) hscan
    rw [State.addRecord_tail]
    exact hroom
  | writesRecorded j _ _ _ _ _ _ _ _ hjob hphase _ _ hasks =>
    exact hasks.tailLaw (hrecorded hjob hphase) (hjobs j hjob).1 (Job.appendFits_of_phase (by simp)) hscan
  | writes j _ _ hreads _ _ hasks =>
    exact hasks.tailLaw htable (hreads.recordsFit hjobs) (Job.appendFits_of_phase (by simp)) hscan
  | writesOn j _ _ _ hjob _ _ hasks =>
    exact hasks.tailLaw htable (hjobs j hjob).1 (Job.appendFits_of_phase (by simp)) hscan
  | ends hcourse => exact hcourse.tailLaw hc he.withoutJob (hwithout htable)
  | endsRecorded j _ _ _ _ _ _ hjob hphase hcourse =>
    refine hcourse.tailLaw hc he.withoutJob ((State.tailLaw_iff _).mpr ⟨?_, State.jobFits_of_no_job rfl, hscan⟩)
    exact hrecorded hjob hphase

theorem exec_tailLaw {c : Instr} {s t : State} (he : exec c s = .next t) (hc : s.configLaw) (hx : s.exclusionLaw)
    (hs : s.tailLaw) : t.tailLaw := by
  have hconfig : ∀ m, (s.freed m).configLaw := fun m => State.configLaw_of_view (s.freed_keeps m) hc
  have hexclusion : ∀ m f, s.carries f → (s.freed m).exclusionLaw := fun m f hf =>
    State.exclusionLaw_of_port (hx.carries hf) (s.freed_keeps m) hx
  have hfreed : ∀ m, (s.freed m).tailLaw := fun m => State.tailLaw_of_view (s.freed_keeps m) hs
  cases exec_progress he with
  | course h => exact h.tailLaw hc hx hs
  | taken v _ hview h =>
    exact h.tailLaw (State.configLaw_of_view hview hc) (State.exclusionLaw_of_view hview hx)
      (State.tailLaw_of_view hview hs)
  | front f m hport _ h => exact h.tailLaw (hconfig m) (hexclusion m f hport) (hfreed m)
  | maint f m hport _ h => exact h.tailLaw (hconfig m) (hexclusion m f hport) (hfreed m)
  | goesOn f g _ _ _ hview => exact State.tailLaw_of_view hview hs
  | reset left => exact State.tailLaw_of_idle (TableFits.empty _) (State.jobFits_of_no_job rfl) rfl

/-- Settles O9: the stack fits the tail, and the tail the journal, move by move. -/
theorem savepointAndTailLawsAreKept : Obligations.SavepointAndTailLawsAreKept := by
  refine ⟨fun _ _ hs h => step_keeps (fun _ _ => id) exec_stackLaw hs h, fun s t hc hx hs h => ?_⟩
  have hall := step_keeps (P := fun s => s.configLaw ∧ s.exclusionLaw ∧ s.tailLaw) (fun _ _ => id)
    (fun he ⟨hc, hx, hs⟩ => ⟨exec_configLaw he hc, exec_exclusionLaw he hc hx, exec_tailLaw he hc hx hs⟩)
    ⟨hc, hx, hs⟩ h
  exact hall.2.2

end Sys2Proof.Machine

/-! SUPPORT. What FRONT carries (R103, R130, R148), and the record that stands before every journaled write (R22, R23),
kept by every move. -/
namespace Sys2Proof.Machine

set_option Elab.async false

/-! ## The chain leaves FRONT and its job -/

/-- No move on MAINT touches the job in progress or what FRONT carries. -/
theorem Course.front {s t : State} (h : Course s t) : t.job = s.job ∧ t.frontOps = s.frontOps := by
  induction h with
  | refl => exact ⟨rfl, rfl⟩
  | quiet _ hview ih => exact ⟨(State.view_job hview).trans ih.1, (State.view_frontOps hview).trans ih.2⟩
  | stage _ _ _ ih | take _ _ _ _ _ ih | close _ _ _ _ _ _ _ ih | execute _ _ _ _ _ _ _ _ _ _ ih | mark _ ih
  | roll _ _ _ _ _ _ ih | due _ _ ih | adopt _ _ _ _ _ _ ih | adoptEmpty _ _ _ _ _ ih | loaded _ _ _ _ _ _ _ _ ih
  | empty _ _ ih | build _ _ _ ih => exact ih
  | beginCopy _ _ _ _ _ _ _ _ _ _ ih | ask _ _ _ _ ih | adoptFormat _ _ _ _ _ _ _ _ _ ih
  | loadedScan _ _ _ _ _ _ _ _ _ ih | start _ _ _ _ _ _ ih =>
    exact ⟨by simpa using ih.1, (State.runMaint_frontOps _ _ _).trans ih.2⟩
  | drop _ _ _ _ _ ih =>
    refine ⟨by simpa using ih.1, (State.runMaint_frontOps _ _ _).trans (Eq.trans ?_ ih.2)⟩
    simp [State.frontOps]
  | dropClose _ _ _ ih =>
    refine ⟨by simpa [State.closed] using ih.1, Eq.trans ?_ ih.2⟩
    simp [State.frontOps, State.closed]

/-! ## What FRONT carries -/

section
variable {u t : State}

theorem State.headerRow_of_active (h : t.active = u.active) (k : Nat) : t.headerRow k = u.headerRow k := by
  simp [State.headerRow, State.base, h]

theorem State.imageRow_of_active (h : t.active = u.active) (k : Nat) : t.imageRow k = u.imageRow k := by
  simp [State.imageRow, State.base, h]

theorem State.asksFor_of_active (h : t.active = u.active) {j : Job} {op : RowOp} (hu : u.asksFor j op) :
    t.asksFor j op := by
  unfold State.asksFor at *
  split at hu <;> simp_all [State.headerRow_of_active h, State.imageRow_of_active h]

theorem State.asksFor_of_not_appending {j : Job} (hj : ∀ i slot sequence step, j.phase ≠ .appending i slot sequence step)
    {op : RowOp} (hu : u.asksFor j op) : t.asksFor j op := by
  unfold State.asksFor at *
  split at hu
  · exact hu
  · next hphase => exact absurd hphase (hj _ _ _ _)
  · exact hu
  · exact hu.elim

theorem State.reservedRow_of_active (h : t.active = u.active) (row : Nat) : t.reservedRow row = u.reservedRow row := by
  simp [State.reservedRow, h]

/-- The law speaks of the job, of what FRONT carries, and of the active configuration. -/
theorem State.frontLaw_of_active (hu : u.frontLaw) (hjob : t.job = u.job) (hops : t.frontOps = u.frontOps)
    (hactive : t.active = u.active) : t.frontLaw := by
  obtain ⟨hone, hasks, hreserved⟩ := hu
  refine ⟨hops ▸ hone, fun op hop => ?_, fun j hj r hr => ?_⟩
  · obtain ⟨j, hj, ha⟩ := hasks op (hops ▸ hop)
    exact ⟨j, hjob.trans hj, State.asksFor_of_active hactive ha⟩
  · rw [State.reservedRow_of_active hactive]
    exact hreserved j ((State.journaledWriteJob_of_job hjob).symm.trans hj) r hr

theorem State.frontLaw_of_view (h : t.view = u.view) (hu : u.frontLaw) : t.frontLaw :=
  State.frontLaw_of_active hu (State.view_job h) (State.view_frontOps h) (State.view_active h)

/-- The active configuration may change where no journaled write job is in progress: nothing is appended. -/
theorem State.frontLaw_of_unrecorded (hu : u.frontLaw) (hfits : u.jobFits) (hno : u.journaledWriteJob = none)
    (hjob : t.job = u.job) (hops : t.frontOps = u.frontOps) : t.frontLaw := by
  obtain ⟨hone, hasks, _⟩ := hu
  refine ⟨hops ▸ hone, fun op hop => ?_, fun j hj => ?_⟩
  · obtain ⟨j, hj, ha⟩ := hasks op (hops ▸ hop)
    refine ⟨j, hjob.trans hj, State.asksFor_of_not_appending (fun i slot sequence step hphase => ?_) ha⟩
    have hjw := ((hfits j hj).2 i slot sequence step hphase).1
    exact absurd (((State.journaledWriteJob_eq_none_iff u).mp hno j hj).symm.trans hjw) (by simp)
  · rw [State.journaledWriteJob_of_job hjob, hno] at hj
    cases hj

end

theorem Course.frontLaw {s t : State} (h : Course s t) (hc : s.configLaw) (hx : s.exclusionLaw) (htail : s.tailLaw)
    (hs : s.frontLaw) : t.frontLaw := by
  induction h with
  | refl => exact hs
  | quiet _ hview ih => exact State.frontLaw_of_view hview ih
  | stage _ _ _ ih | take _ _ _ _ _ ih | close _ _ _ _ _ _ _ ih | execute _ _ _ _ _ _ _ _ _ _ ih | mark _ ih
  | roll _ _ _ _ _ _ ih | due _ _ ih | empty _ _ ih | build _ _ _ ih =>
    exact State.frontLaw_of_active ih rfl rfl rfl
  | beginCopy _ _ _ _ _ _ _ _ _ _ ih | ask _ _ _ _ ih | start _ _ _ _ _ _ ih =>
    exact State.frontLaw_of_active ih (by simp) (State.runMaint_frontOps _ _ _) (by simp)
  | drop _ _ _ _ _ ih =>
    refine State.frontLaw_of_active ih (by simp) ((State.runMaint_frontOps _ _ _).trans ?_) (by simp)
    simp [State.frontOps]
  | dropClose _ _ _ ih =>
    exact State.frontLaw_of_active ih (by simp [State.closed]) (by simp [State.closed, State.frontOps])
      (by simp [State.closed])
  | adopt hcourse r hdue hjob _ _ ih | adoptEmpty hcourse r hdue hjob _ ih =>
    exact State.frontLaw_of_unrecorded ih (State.jobFits_of_no_job hjob) (State.journaledWriteJob_of_no_job hjob) rfl rfl
  | adoptFormat hcourse _ _ _ _ _ hjob _ _ ih =>
    exact State.frontLaw_of_unrecorded ih (State.jobFits_of_no_job hjob) (State.journaledWriteJob_of_no_job hjob)
      (by simp [State.emptyJournal]) (State.runMaint_frontOps _ _ _)
  | loaded hcourse _ _ _ _ hmaint _ _ ih =>
    have hfits := ((State.tailLaw_iff _).mp (hcourse.tailLaw hc hx htail)).2.1
    exact State.frontLaw_of_unrecorded ih hfits ((hcourse.exclusionLaw hc hx).of_load hmaint).2 rfl rfl
  | loadedScan hcourse _ _ _ _ hmaint _ _ _ ih =>
    have hfits := ((State.tailLaw_iff _).mp (hcourse.tailLaw hc hx htail)).2.1
    exact State.frontLaw_of_unrecorded ih hfits ((hcourse.exclusionLaw hc hx).of_load hmaint).2 (by simp)
      (State.runMaint_frontOps _ _ _)

/-! ## The Row Engine -/

/-- The rows of a job, when it is a journaled write, are no reserved rows (R103). -/
def Job.unreserved (j : Job) (u : State) : Prop :=
  j.journaledWrite = true → ∀ r ∈ j.rows, u.reservedRow r.row = false

section
variable {u t : State} {j : Job}

theorem State.frontLaw.current (hu : u.frontLaw) (hjob : u.job = some j) : j.unreserved u := fun hjw =>
  hu.2.2 j ((State.journaledWriteJob_eq_some_iff u j).mpr ⟨hjob, hjw⟩)

theorem State.frontLaw.reads (hu : u.frontLaw) (h : Reads u j) : j.unreserved u := by
  cases h with
  | taken _ _ hfit => exact hfit.unreserved
  | current k _ hjob _ hwork =>
    intro hjw r hr
    obtain ⟨i, hi⟩ := List.mem_iff_getElem?.mp hr
    obtain ⟨q, hq, hrow⟩ := Job.row_of_work hwork hi
    simp only [JobRow.work, Prod.mk.injEq] at hrow
    rw [← hrow.1]
    exact hu.current hjob ((Job.journaledWrite_of_work hwork).symm.trans hjw) q (List.mem_of_getElem? hq)

theorem Job.unreserved.phase (h : j.unreserved u) (phase : JobPhase) : Job.unreserved { j with phase := phase } u := h

theorem Asks.active {op : RowOp} (h : Asks u j op t) : t.active = u.active :=
  (State.view_active h.view).trans rfl

theorem Asks.job {op : RowOp} (h : Asks u j op t) : t.job = some j :=
  (State.view_job h.view).trans rfl

theorem Asks.frontLaw {op : RowOp} (h : Asks u j op t) (hops : u.frontOps = []) (hasks : u.asksFor j op)
    (hreserved : j.unreserved u) : t.frontLaw := by
  have hone := h.ops hops
  refine ⟨by simp [hone], fun op' hop => ⟨j, h.job, ?_⟩, fun k hk r hr => ?_⟩
  · obtain rfl : op' = op := by simpa [hone] using hop
    exact State.asksFor_of_active h.active hasks
  · obtain ⟨hjob, hjw⟩ := (State.journaledWriteJob_eq_some_iff t k).mp hk
    obtain rfl := Option.some.inj (h.job.symm.trans hjob)
    rw [State.reservedRow_of_active h.active]
    exact hreserved hjw r hr

/-- The target write of a row that the job writes (R142). -/
theorem State.asksFor_write {i k : Nat} (content : Row) (h : nextRow JobRow.touched j.rows i = some k) :
    u.asksFor { j with phase := .writing k } (.write (j.rowNumber k) content) := by
  obtain ⟨_, ⟨r, hr, htouched⟩, _⟩ := (nextRow_eq_some_iff _ _ _ _).mp h
  exact ⟨r, content, hr, htouched, by rw [Job.rowNumber_of j k r hr]⟩

/-- Without a job in progress FRONT carries nothing. -/
theorem State.frontLaw_of_no_job (hjob : u.job = none) (hops : u.frontOps = []) : u.frontLaw := by
  refine ⟨by simp [hops], fun op hop => by simp [hops] at hop, fun j hj => ?_⟩
  rw [State.journaledWriteJob_of_no_job hjob] at hj
  cases hj

end

/-- The tail law as a record has joined the table and the job has ended. -/
theorem State.tailLaw_withoutJob {u : State} (hu : u.tailLaw) : ({ u with job := none } : State).tailLaw := by
  obtain ⟨htable, _, hscan⟩ := (State.tailLaw_iff u).mp hu
  exact (State.tailLaw_iff _).mpr ⟨htable, State.jobFits_of_no_job rfl, hscan⟩

theorem State.tailLaw_recorded {u : State} (hu : u.tailLaw) {j : Job} {i slot : Nat} {former : Word} {last : AppendStep}
    (hjob : u.job = some j) (hphase : j.phase = .appending i slot former last) (side : Half) (header : SlotHeader) :
    ({ u.addRecord (j.rowNumber i) side header with job := none } : State).tailLaw := by
  obtain ⟨htable, hjobs, hscan⟩ := (State.tailLaw_iff u).mp hu
  obtain ⟨_, _, hroom⟩ := (hjobs j hjob).2 _ _ _ _ hphase
  rw [State.tail] at hroom
  refine (State.tailLaw_iff _).mpr ⟨?_, State.jobFits_of_no_job rfl, hscan⟩
  exact htable.append (by omega) _ _

theorem JobMove.frontLaw {u t : State} (h : JobMove u t) (hc : u.configLaw) (hx : u.exclusionLaw) (htail : u.tailLaw)
    (hu : u.frontLaw) (hops : u.frontOps = []) : t.frontLaw := by
  cases h with
  | stays hview => exact State.frontLaw_of_view hview hu
  | reads j i hreads hasks => exact hasks.frontLaw hops rfl ((hu.reads hreads).phase _)
  | appends j _ _ _ content hreads _ _ hasks => exact hasks.frontLaw hops ⟨content, rfl⟩ ((hu.reads hreads).phase _)
  | appendsOn j _ _ _ _ _ content hjob _ hasks => exact hasks.frontLaw hops ⟨content, rfl⟩ ((hu.current hjob).phase _)
  | appendsNext j _ _ _ _ _ _ _ content _ _ _ hw hjob _ _ hasks =>
    subst hw
    exact hasks.frontLaw hops ⟨content, rfl⟩ ((hu.current hjob).phase _)
  | writesRecorded j _ _ _ _ _ content _ _ hjob _ _ htouched hasks =>
    exact hasks.frontLaw hops (State.asksFor_write content htouched) ((hu.current hjob).phase _)
  | writes j _ content hreads _ htouched hasks =>
    exact hasks.frontLaw hops (State.asksFor_write content htouched) ((hu.reads hreads).phase _)
  | writesOn j _ _ content hjob _ hnext hasks =>
    exact hasks.frontLaw hops (State.asksFor_write content hnext) ((hu.current hjob).phase _)
  | ends hcourse =>
    exact hcourse.frontLaw hc hx.withoutJob (State.tailLaw_withoutJob htail) (State.frontLaw_of_no_job rfl hops)
  | endsRecorded j _ _ _ _ side header hjob hphase hcourse =>
    exact hcourse.frontLaw hc hx.withoutJob (State.tailLaw_recorded htail hjob hphase side header)
      (State.frontLaw_of_no_job rfl hops)

/-! ## The port as it becomes free -/

/-- The row operation that a requester's flight carries for FRONT. -/
def Flight.frontOps (f : Flight) : List RowOp := if f.requester = .front then [f.op] else []

theorem State.frontOps_of_carries {s : State} {f : Flight} (h : s.carries f) :
    s.frontOps = f.frontOps ++ s.waitFront.toList := by
  obtain hp | hp := h <;> simp [State.frontOps, Flight.frontOps, hp]

/-- What waits of FRONT is what it carries once the port is free (R156). -/
theorem State.freed_frontOps (s : State) (m : Memory) : (s.freed m).frontOps = s.waitFront.toList := by
  obtain hsame | ⟨r, op, hwaiting, hgrant⟩ := State.arbitrate_cases { s with mem := m, port := .idle }
  · rw [State.freed, hsame]
    rfl
  · rw [State.freed, hgrant]
    cases r
    case front =>
      have hwait : s.waitFront = some op := hwaiting
      simp [State.frontOps, State.setWaiting, State.grant, hwait]
    case maint => simp [State.frontOps, State.setWaiting, State.grant]

/-- FRONT carried one row operation, which has ended. -/
theorem State.frontLaw.freed_front {s : State} (hs : s.frontLaw) {f : Flight} (h : s.carries f)
    (hfront : f.requester = .front) (m : Memory) : (s.freed m).frontOps = [] := by
  have hone := hs.1
  rw [State.frontOps_of_carries h, Flight.frontOps, if_pos hfront] at hone
  rw [State.freed_frontOps]
  cases hw : s.waitFront with
  | none => rfl
  | some op => simp [hw] at hone

theorem State.freed_maint_frontOps {s : State} {f : Flight} (h : s.carries f) (hmaint : f.requester = .maint)
    (m : Memory) : (s.freed m).frontOps = s.frontOps := by
  rw [State.freed_frontOps, State.frontOps_of_carries h, Flight.frontOps, if_neg (by simp [hmaint]), List.nil_append]

/-- An attempt that goes on carries the same row operation. -/
theorem State.goesOn_frontOps {s t : State} {f g : Flight} (hport : s.carries f) (hop : g.requester = f.requester ∧ g.op = f.op)
    (hcarries : t.carries g) (hview : t.view = ({ s with port := t.port } : State).view) : t.frontOps = s.frontOps := by
  obtain ⟨hrequester, hsame⟩ := hop
  have hport' : ({ s with port := t.port } : State).carries g := hcarries
  rw [State.view_frontOps hview, State.frontOps_of_carries hport', State.frontOps_of_carries hport, Flight.frontOps,
    Flight.frontOps, hrequester, hsame]

end Sys2Proof.Machine

/-! SUPPORT. A record stands before every journaled write (R18, R22, R23): kept by every move, and with it what FRONT
carries. -/
namespace Sys2Proof.Machine

set_option Elab.async false

/-! ## The segment -/

section
variable {u t : State}

theorem State.needsRecord_of_tables (hindex : t.index = u.index) (hstack : t.stack = u.stack) (row : Nat) :
    t.needsRecord row = u.needsRecord row := by
  simp [State.needsRecord, State.segmentStart, hindex, hstack]

/-- A record that joins the table is of the current segment, and takes no other row out of it (R18, R22). -/
theorem State.needsRecord_addRecord (hu : u.stackLaw) (row : Nat) (side : Half) (header : SlotHeader) {n : Nat}
    (hn : n = row ∨ u.needsRecord n = false) : (u.addRecord row side header).needsRecord n = false := by
  have hstart : u.segmentStart ≤ u.tail := by
    obtain ⟨⟨_, _, hbound⟩, _⟩ := (State.stackLaw_iff u).mp hu
    unfold State.segmentStart
    cases hstack : u.stack with
    | nil => exact Nat.zero_le _
    | cons p rest => exact hbound p (by simp [hstack])
  by_cases hrow : n = row
  · subst hrow
    simpa [State.needsRecord, State.addRecord, indexGet_indexSet_same, State.segmentStart] using hstart
  · have hneeds := hn.resolve_left hrow
    simpa [State.needsRecord, State.addRecord, indexGet_indexSet_other _ _ _ hrow, State.segmentStart] using hneeds

/-- The rows that a journaled write job has recorded by its phase have their record (R18, R22). -/
def Job.standsRecorded (j : Job) (u : State) : Prop :=
  j.journaledWrite = true → ∀ k r, j.rows[k]? = some r → j.recorded k r = true → u.needsRecord r.row = false

/-- FRONT writes no row of a journaled write job but in WRITING (R23). -/
def Job.writesOnlyInWriting (j : Job) (u : State) : Prop :=
  j.journaledWrite = true → ∀ row content, RowOp.write row content ∈ u.frontOps → (∃ r ∈ j.rows, r.row = row) →
    ∃ i, j.phase = .writing i

theorem State.recordLaw_iff (u : State) :
    u.recordLaw ↔ ∀ j, u.job = some j → j.standsRecorded u ∧ j.writesOnlyInWriting u := by
  constructor
  · intro h j hj
    refine ⟨fun hjw => ?_, fun hjw => ?_⟩
    · exact (h j ((State.journaledWriteJob_eq_some_iff u j).mpr ⟨hj, hjw⟩)).1
    · exact (h j ((State.journaledWriteJob_eq_some_iff u j).mpr ⟨hj, hjw⟩)).2
  · intro h j hj
    obtain ⟨hjob, hjw⟩ := (State.journaledWriteJob_eq_some_iff u j).mp hj
    exact ⟨(h j hjob).1 hjw, (h j hjob).2 hjw⟩

theorem State.recordLaw_of_unrecorded (h : u.journaledWriteJob = none) : u.recordLaw := fun j hj => by simp [h] at hj

/-- The law speaks of the job, of what FRONT carries, of the row index and of the savepoint stack. -/
theorem State.recordLaw_of_tables (hu : u.recordLaw) (hjob : t.job = u.job) (hops : t.frontOps = u.frontOps)
    (hindex : t.index = u.index) (hstack : t.stack = u.stack) : t.recordLaw := by
  intro j hj
  obtain ⟨hrecorded, hwrites⟩ := hu j ((State.journaledWriteJob_of_job hjob).symm.trans hj)
  refine ⟨fun k r hr h => ?_, fun row content hop => hwrites row content (hops ▸ hop)⟩
  rw [State.needsRecord_of_tables hindex hstack]
  exact hrecorded k r hr h

theorem State.recordLaw_of_view (h : t.view = u.view) (hu : u.recordLaw) : t.recordLaw :=
  State.recordLaw_of_tables hu (State.view_job h) (State.view_frontOps h) (State.view_index h) (State.view_stack h)

end

theorem Course.recordLaw {s t : State} (h : Course s t) (hc : s.configLaw) (hx : s.exclusionLaw) (hs : s.recordLaw) :
    t.recordLaw := by
  induction h with
  | refl => exact hs
  | quiet _ hview ih => exact State.recordLaw_of_view hview ih
  | stage _ _ _ ih | take _ _ _ _ _ ih | mark _ ih | due _ _ ih | adopt _ _ _ _ _ _ ih | loaded _ _ _ _ _ _ _ _ ih =>
    exact State.recordLaw_of_tables ih rfl rfl rfl rfl
  | beginCopy _ _ _ _ _ _ _ _ _ _ ih | ask _ _ _ _ ih | loadedScan _ _ _ _ _ _ _ _ _ ih | start _ _ _ _ _ _ ih =>
    exact State.recordLaw_of_tables ih (by simp) (State.runMaint_frontOps _ _ _) (by simp) (by simp)
  | close _ _ _ _ _ _ hstack ih =>
    cases hstack with
    | same => exact State.recordLaw_of_tables ih rfl rfl rfl rfl
    | emptied hjob | pushed hjob | popped hjob =>
      exact State.recordLaw_of_unrecorded (State.journaledWriteJob_of_not_in_progress hjob)
  | execute _ _ _ _ _ _ _ hjob =>
    exact State.recordLaw_of_unrecorded (State.journaledWriteJob_of_not_in_progress hjob)
  | adoptEmpty _ _ _ hjob => exact State.recordLaw_of_unrecorded (State.journaledWriteJob_of_no_job hjob)
  | adoptFormat _ _ _ _ _ _ hjob =>
    exact State.recordLaw_of_unrecorded (State.journaledWriteJob_of_no_job (by simpa [State.emptyJournal] using hjob))
  | empty hcourse hworks ih =>
    have hexclusion := hcourse.exclusionLaw hc hx
    refine State.recordLaw_of_unrecorded (hexclusion.2.2.2 ?_)
    exact hworks.elim hexclusion.executing_of_maint id
  | build hcourse hmaint | roll hcourse _ _ _ hmaint =>
    exact State.recordLaw_of_unrecorded ((hcourse.exclusionLaw hc hx).no_job_of_maint ⟨_, hmaint, rfl⟩)
  | drop hcourse _ _ hrestoring | dropClose hcourse _ hrestoring =>
    have hexclusion := hcourse.exclusionLaw hc hx
    have hno := hexclusion.2.2.2 (hexclusion.executing_of_works (State.journalWorks_of_restoring hrestoring))
    exact State.recordLaw_of_unrecorded ((State.journaledWriteJob_of_job (by simp [State.closed])).trans hno)

/-! ## The Row Engine -/

section
variable {u t : State} {j : Job}

/-- The rows that need no record have one by now, as the job reads (R18, R134). -/
theorem Reads.standsRecorded (h : Reads u j) (hu : u.recordLaw) (hjw : j.journaledWrite = true) {r : JobRow}
    (hr : r ∈ j.rows) (htouched : r.touched = true) (hneeds : r.needsRecord = false) : u.needsRecord r.row = false := by
  cases h with
  | taken _ _ hfit => exact hfit.segment hjw r hr htouched hneeds
  | current k i hjob hphase hwork =>
    obtain ⟨m, hm⟩ := List.mem_iff_getElem?.mp hr
    obtain ⟨q, hq, hqr⟩ := Job.row_of_work hwork hm
    simp only [JobRow.work, Prod.mk.injEq] at hqr
    obtain ⟨hrow, hcls, hneeds'⟩ := hqr
    rw [← hrow]
    refine ((State.recordLaw_iff u).mp hu k hjob).1 ((Job.journaledWrite_of_work hwork).symm.trans hjw) m q hq ?_
    simp only [Job.recorded, hphase, JobRow.touched, hcls, hneeds', hneeds, Bool.not_false, Bool.and_true]
    exact htouched

/-- What the job asks for, after which its recorded rows have their record, and which is no write of its rows. -/
theorem Asks.recordLaw {op : RowOp} (h : Asks u j op t) (hops : u.frontOps = []) (hrecorded : j.standsRecorded u)
    (hwrites : j.journaledWrite = true → ∀ row content, op = .write row content → (∃ r ∈ j.rows, r.row = row) →
      ∃ i, j.phase = .writing i) : t.recordLaw := by
  have hindex : t.index = u.index := (State.view_index h.view).trans rfl
  have hstack : t.stack = u.stack := (State.view_stack h.view).trans rfl
  refine (State.recordLaw_iff t).mpr fun k hk => ?_
  obtain rfl := Option.some.inj (h.job.symm.trans hk)
  refine ⟨fun hjw m r hr hrec => ?_, fun hjw row content hop => hwrites hjw row content ?_⟩
  · rw [State.needsRecord_of_tables hindex hstack]
    exact hrecorded hjw m r hr hrec
  · rw [h.ops hops] at hop
    exact (List.mem_singleton.mp hop).symm

/-- A row of the journal area is a reserved row (R97, R103). -/
theorem State.reservedRow_of_slot {slot : Nat} (hslot : slot < u.nSlots.toNat) (step : AppendStep) :
    u.reservedRow (if step = .imageWrite then u.imageRow slot else u.headerRow slot) = true := by
  cases hactive : u.active with
  | none => simp [State.nSlots, hactive] at hslot
  | some c =>
    have hbase : u.base = c.base := by simp [State.base, hactive]
    have hn : u.nSlots = c.nSlots := by simp [State.nSlots, hactive]
    rw [hn] at hslot
    have hrows : journalRows c.nSlots.toNat = 2 + 2 * c.nSlots.toNat := if_neg (by omega)
    simp only [State.reservedRow, hactive, Option.map_some, Option.getD_some, ConfigRecord.inJournalArea, hrows,
      Bool.or_eq_true, Bool.and_eq_true, decide_eq_true_eq]
    right
    split
    · simp only [State.imageRow, hbase]
      omega
    · simp only [State.headerRow, hbase]
      omega

/-- An append writes no row of its job (R22, R103). -/
theorem State.append_writes_no_row {slot : Nat} {step : AppendStep} {content : Row} {phase : JobPhase}
    (hslot : slot < u.nSlots.toNat) (hreserved : j.unreserved u) (hjw : j.journaledWrite = true) (row : Nat)
    (content' : Row)
    (hop : RowOp.write (if step = .imageWrite then u.imageRow slot else u.headerRow slot) content = .write row content')
    (hrow : ∃ r ∈ j.rows, r.row = row) : ∃ i, phase = .writing i := by
  obtain ⟨r, hr, rfl⟩ := hrow
  obtain ⟨hsame, _⟩ := RowOp.write.inj hop
  have hyes := State.reservedRow_of_slot hslot step
  rw [hsame, hreserved hjw r hr] at hyes
  cases hyes

/-- A row before the first that needs a record needs none. -/
theorem not_needs_before {rows : List JobRow} {i k m : Nat} {r : JobRow} (h : nextRow JobRow.needsRecord rows m = some i)
    (hr : rows[k]? = some r) (hmk : m ≤ k) (hki : k < i) : r.needsRecord = false :=
  ((nextRow_eq_some_iff _ _ _ _).mp h).2.2 k r hmk hki hr

/-- The rows recorded by a phase of the appends are those that need no record, and those before it (R22). -/
theorem Job.recorded_appending {i slot : Nat} {sequence : Word} {step : AppendStep} {k : Nat} {r : JobRow}
    (h : Job.recorded { j with phase := .appending i slot sequence step } k r = true) :
    r.touched = true ∧ (r.needsRecord = false ∨ k < i) := by
  simpa [Job.recorded] using h

theorem Job.recorded_of_appending {i slot : Nat} {sequence : Word} {step : AppendStep} {k : Nat} {r : JobRow}
    (hphase : j.phase = .appending i slot sequence step) (htouched : r.touched = true)
    (h : r.needsRecord = false ∨ k < i) : j.recorded k r = true := by
  simp [Job.recorded, hphase, htouched, h]

theorem Job.touched_of_recorded {k : Nat} {r : JobRow} (h : j.recorded k r = true) : r.touched = true :=
  (Bool.and_eq_true_iff.mp h).1

variable (hs : u.stackLaw) (hu : u.recordLaw) {i slot : Nat} {former : Word} {last : AppendStep}
  (hjob : u.job = some j) (hphase : j.phase = .appending i slot former last) (hjw : j.journaledWrite = true)
include hs hu hjob hphase hjw

/-- As a record joins the table, the rows that need no record, those before it and its own have theirs (R22). -/
theorem State.addRecord_stands (side : Half) (header : SlotHeader) {k : Nat} {r : JobRow} (hr : j.rows[k]? = some r)
    (htouched : r.touched = true) (h : r.needsRecord = false ∨ k ≤ i) :
    (u.addRecord (j.rowNumber i) side header).needsRecord r.row = false := by
  refine State.needsRecord_addRecord hs _ _ _ ?_
  by_cases hki : k = i
  · subst hki
    exact .inl (Job.rowNumber_of j k r hr).symm
  · refine .inr (((State.recordLaw_iff u).mp hu j hjob).1 hjw k r hr (Job.recorded_of_appending hphase htouched ?_))
    exact h.imp id fun hle => by omega

end

theorem JobMove.recordLaw {u t : State} (h : JobMove u t) (hc : u.configLaw) (hs : u.stackLaw) (hx : u.exclusionLaw)
    (htail : u.tailLaw) (hf : u.frontLaw) (hu : u.recordLaw) (hops : u.frontOps = []) : t.recordLaw := by
  have hjobs := ((State.tailLaw_iff u).mp htail).2.1
  cases h with
  | stays hview => exact State.recordLaw_of_view hview hu
  | reads j i hreads hasks =>
    refine hasks.recordLaw hops (fun hjw k r hr hrec => ?_) fun _ row content hop => by cases hop
    have hrec' : r.touched = true ∧ r.needsRecord = false := by simpa [Job.recorded] using hrec
    exact hreads.standsRecorded hu hjw (List.mem_of_getElem? hr) hrec'.1 hrec'.2
  | appends j i sequence step content hreads hfirst hroom hasks =>
    refine hasks.recordLaw hops (fun hjw k r hr hrec => ?_) fun hjw => ?_
    · obtain ⟨htouched, hcase⟩ := Job.recorded_appending hrec
      refine hreads.standsRecorded hu hjw (List.mem_of_getElem? hr) htouched ?_
      exact hcase.elim id fun hki => not_needs_before hfirst hr (Nat.zero_le _) hki
    · have hcount := filter_length_of_nextRow hfirst
      rw [List.drop_zero] at hcount
      exact State.append_writes_no_row (by omega) ((hf.reads hreads).phase _) hjw
  | appendsOn j i slot sequence former step content hjob hphase hasks =>
    refine hasks.recordLaw hops (fun hjw k r hr hrec => ?_) fun hjw => ?_
    · obtain ⟨htouched, hcase⟩ := Job.recorded_appending hrec
      exact ((State.recordLaw_iff u).mp hu j hjob).1 hjw k r hr (Job.recorded_of_appending hphase htouched hcase)
    · exact State.append_writes_no_row ((hjobs j hjob).2 _ _ _ _ hphase).2.1 ((hf.current hjob).phase _) hjw
  | appendsNext j i k slot former sequence last step content side header w hw hjob hphase hnext hasks =>
    subst hw
    refine hasks.recordLaw hops (fun hjw m r hr hrec => ?_) fun hjw => ?_
    · obtain ⟨htouched, hcase⟩ := Job.recorded_appending hrec
      refine State.addRecord_stands hs hu hjob hphase hjw side header hr htouched ?_
      by_cases hmi : m ≤ i
      · exact .inr hmi
      · exact .inl (hcase.elim id fun hmk => not_needs_before hnext hr (by omega) hmk)
    · obtain ⟨_, _, hroom⟩ := (hjobs j hjob).2 _ _ _ _ hphase
      have hcount := filter_length_of_nextRow hnext
      refine State.append_writes_no_row (u := u.addRecord (j.rowNumber i) side header) ?_ ((hf.current hjob).phase _) hjw
      rw [State.addRecord_tail]
      show u.tail + 1 < u.nSlots.toNat
      omega
  | writesRecorded j i k slot former last content side header hjob hphase hlast htouched hasks =>
    refine hasks.recordLaw hops (fun hjw m r hr hrec => ?_) fun _ _ _ _ _ => ⟨k, rfl⟩
    refine State.addRecord_stands hs hu hjob hphase hjw side header hr (Job.touched_of_recorded hrec) ?_
    by_cases hmi : m ≤ i
    · exact .inr hmi
    · exact .inl ((nextRow_eq_none_iff _ _ _).mp hlast m r (by omega) hr)
  | writes j k content hreads hnone htouched hasks =>
    refine hasks.recordLaw hops (fun hjw m r hr hrec => ?_) fun _ _ _ _ _ => ⟨k, rfl⟩
    exact hreads.standsRecorded hu hjw (List.mem_of_getElem? hr) (Job.touched_of_recorded hrec)
      ((nextRow_eq_none_iff _ _ _).mp hnone m r (Nat.zero_le _) hr)
  | writesOn j i k content hjob hphase hnext hasks =>
    refine hasks.recordLaw hops (fun hjw m r hr hrec => ?_) fun _ _ _ _ _ => ⟨k, rfl⟩
    refine ((State.recordLaw_iff u).mp hu j hjob).1 hjw m r hr ?_
    simpa [Job.recorded, hphase] using hrec
  | ends hcourse | endsRecorded _ _ _ _ _ _ _ _ _ hcourse =>
    exact hcourse.recordLaw hc hx.withoutJob (State.recordLaw_of_unrecorded (State.journaledWriteJob_of_no_job rfl))

/-! ## The statements -/

/-- Where FRONT carries nothing. -/
theorem State.frontLaw_of_no_ops {u t : State} (hu : u.frontLaw) (hjob : t.job = u.job) (hactive : t.active = u.active)
    (hops : t.frontOps = []) : t.frontLaw := by
  refine ⟨by simp [hops], fun op hop => by simp [hops] at hop, fun j hj r hr => ?_⟩
  rw [State.reservedRow_of_active hactive]
  exact hu.2.2 j ((State.journaledWriteJob_of_job hjob).symm.trans hj) r hr

theorem State.recordLaw_of_no_ops {u t : State} (hu : u.recordLaw) (hjob : t.job = u.job) (hindex : t.index = u.index)
    (hstack : t.stack = u.stack) (hops : t.frontOps = []) : t.recordLaw := by
  intro j hj
  refine ⟨fun k r hr hrec => ?_, fun row content hop => by simp [hops] at hop⟩
  rw [State.needsRecord_of_tables hindex hstack]
  exact (hu j ((State.journaledWriteJob_of_job hjob).symm.trans hj)).1 k r hr hrec

theorem State.frontLaw.ops_of_no_job {u : State} (hu : u.frontLaw) (hnone : u.job = none) : u.frontOps = [] := by
  refine List.eq_nil_iff_forall_not_mem.mpr fun op hop => ?_
  obtain ⟨j, hj, _⟩ := hu.2.1 op hop
  simp [hnone] at hj

section
variable {c : Instr} {s t : State} (he : exec c s = .next t) (hc : s.configLaw) (hx : s.exclusionLaw)
  (htail : s.tailLaw) (hs : s.frontLaw)
include he hc hx htail hs

theorem exec_frontLaw : t.frontLaw := by
  have hconfig : ∀ m, (s.freed m).configLaw := fun m => State.configLaw_of_view (s.freed_keeps m) hc
  have hexclusion : ∀ m f, s.carries f → (s.freed m).exclusionLaw := fun m f hf =>
    State.exclusionLaw_of_port (hx.carries hf) (s.freed_keeps m) hx
  have htails : ∀ m, (s.freed m).tailLaw := fun m => State.tailLaw_of_view (s.freed_keeps m) htail
  cases exec_progress he with
  | course h => exact h.frontLaw hc hx htail hs
  | taken v hnone hview h =>
    exact h.frontLaw (State.configLaw_of_view hview hc) (State.exclusionLaw_of_view hview hx)
      (State.tailLaw_of_view hview htail) (State.frontLaw_of_view hview hs)
      ((State.view_frontOps hview).trans (hs.ops_of_no_job hnone))
  | front f m hport hfront h =>
    have hops := hs.freed_front hport hfront m
    exact h.frontLaw (hconfig m) (hexclusion m f hport) (htails m)
      (State.frontLaw_of_no_ops hs (by simp [State.freed]) (by simp [State.freed]) hops) hops
  | maint f m hport hmaint h =>
    refine h.frontLaw (hconfig m) (hexclusion m f hport) (htails m) ?_
    exact State.frontLaw_of_active hs (by simp [State.freed]) (State.freed_maint_frontOps hport hmaint m)
      (by simp [State.freed])
  | goesOn f g hport hop hcarries hview =>
    exact State.frontLaw_of_active hs ((State.view_job hview).trans rfl) (State.goesOn_frontOps hport hop hcarries hview)
      ((State.view_active hview).trans rfl)
  | reset left => exact State.frontLaw_of_no_job rfl rfl

theorem exec_recordLaw (hstack : s.stackLaw) (hrecord : s.recordLaw) : t.recordLaw := by
  have hconfig : ∀ m, (s.freed m).configLaw := fun m => State.configLaw_of_view (s.freed_keeps m) hc
  have hexclusion : ∀ m f, s.carries f → (s.freed m).exclusionLaw := fun m f hf =>
    State.exclusionLaw_of_port (hx.carries hf) (s.freed_keeps m) hx
  cases exec_progress he with
  | course h => exact h.recordLaw hc hx hrecord
  | taken v hnone hview h =>
    exact h.recordLaw (State.configLaw_of_view hview hc) (State.stackLaw_of_view hview hstack)
      (State.exclusionLaw_of_view hview hx) (State.tailLaw_of_view hview htail) (State.frontLaw_of_view hview hs)
      (State.recordLaw_of_view hview hrecord) ((State.view_frontOps hview).trans (hs.ops_of_no_job hnone))
  | front f m hport hfront h =>
    have hops := hs.freed_front hport hfront m
    exact h.recordLaw (hconfig m) (State.stackLaw_of_view (s.freed_keeps m) hstack) (hexclusion m f hport)
      (State.tailLaw_of_view (s.freed_keeps m) htail)
      (State.frontLaw_of_no_ops hs (by simp [State.freed]) (by simp [State.freed]) hops)
      (State.recordLaw_of_no_ops hrecord (by simp [State.freed]) (by simp [State.freed]) (by simp [State.freed]) hops)
      hops
  | maint f m hport hmaint h =>
    refine h.recordLaw (hconfig m) (hexclusion m f hport) ?_
    exact State.recordLaw_of_tables hrecord (by simp [State.freed]) (State.freed_maint_frontOps hport hmaint m)
      (by simp [State.freed]) (by simp [State.freed])
  | goesOn f g hport hop hcarries hview =>
    exact State.recordLaw_of_tables hrecord ((State.view_job hview).trans rfl)
      (State.goesOn_frontOps hport hop hcarries hview) ((State.view_index hview).trans rfl)
      ((State.view_stack hview).trans rfl)
  | reset left => exact State.recordLaw_of_unrecorded (State.journaledWriteJob_of_no_job rfl)

end

/-- Settles O11: an append writes reserved rows alone, and the targets are written when every record stands. -/
theorem recordStandsBeforeEveryJournaledWrite : Obligations.RecordStandsBeforeEveryJournaledWrite := by
  constructor
  · intro s t hc hx htail hf h
    have hall := step_keeps (P := fun s => s.configLaw ∧ s.exclusionLaw ∧ s.tailLaw ∧ s.frontLaw) (fun _ _ => id)
      (fun he ⟨hc, hx, htail, hf⟩ => ⟨exec_configLaw he hc, exec_exclusionLaw he hc hx, exec_tailLaw he hc hx htail,
        exec_frontLaw he hc hx htail hf⟩) ⟨hc, hx, htail, hf⟩ h
    exact hall.2.2.2
  · intro s t hc hs hx htail hf hrecord h
    have hall := step_keeps
      (P := fun s => s.configLaw ∧ s.exclusionLaw ∧ s.tailLaw ∧ s.frontLaw ∧ s.stackLaw ∧ s.recordLaw) (fun _ _ => id)
      (fun he ⟨hc, hx, htail, hf, hs, hrecord⟩ => ⟨exec_configLaw he hc, exec_exclusionLaw he hc hx,
        exec_tailLaw he hc hx htail, exec_frontLaw he hc hx htail hf, exec_stackLaw he hs,
        exec_recordLaw he hc hx htail hf hs hrecord⟩) ⟨hc, hx, htail, hf, hs, hrecord⟩ h
    exact hall.2.2.2.2.2

/-! ## The start's recovery -/

theorem State.recoveryLaw_of_view {u t : State} (h : t.view = u.view) (hu : u.recoveryLaw) : t.recoveryLaw := by
  intro o ho horigin
  have hop := State.view_operation h
  rw [ho] at hop
  obtain ⟨o', ho', hid⟩ := Option.map_eq_some_iff.mp hop.symm
  simp only [LongOp.identity, Prod.mk.injEq] at hid
  obtain ⟨hkind, horigin', hphase⟩ := hid
  have hslots : t.nSlots = u.nSlots := by rw [State.nSlots, State.view_active h, State.nSlots]
  have := hu o' ho' (horigin'.trans horigin)
  rwa [hkind, hphase, ← State.view_maint h, ← State.view_journal h, ← State.view_recoveryMark h, ← hslots] at this

theorem MaintTask.ofJournal_of_plain {task : MaintTask} (h : task.plain = true) : task.ofJournal = true := by
  cases task <;> first | rfl | cases h

/-- The recovery that law speaks of works on MAINT, with none of the load's tasks and none of a copy write's. -/
theorem State.recoveryLaw.works {u : State} (hu : u.recoveryLaw) {o : LongOp} (ho : u.longOp = some o)
    (horigin : o.origin = .start) : u.onMaint MaintTask.ofJournal :=
  State.onMaint_map u _ (hu o ho horigin).2.2.1

theorem MaintTask.not_journal_of_load {task : MaintTask} (h : task.ofLoad = true) : task.ofJournal = false := by
  cases task <;> first | rfl | cases h

theorem State.not_load_of_journal {u : State} (h : u.onMaint MaintTask.ofJournal) : ¬ u.onMaint MaintTask.ofLoad := by
  rintro ⟨task, hm, hload⟩
  obtain ⟨task', hm', hjournal⟩ := h
  obtain rfl := Option.some.inj (hm.symm.trans hm')
  exact absurd ((MaintTask.not_journal_of_load hload).symm.trans hjournal) (by simp)

theorem State.not_copy_of_journal {u : State} (h : u.onMaint MaintTask.ofJournal) :
    ¬ u.onMaint MaintTask.ofCopyWrite := by
  rintro ⟨task, hm, hcopy⟩
  obtain ⟨task', hm', hjournal⟩ := h
  obtain rfl := Option.some.inj (hm.symm.trans hm')
  exact absurd ((MaintTask.not_journal_of_copy hcopy).symm.trans hjournal) (by simp)

/-- What follows the journal's own work on MAINT is the journal's own work. -/
theorem Follows.ofJournal {u : State} {task : MaintTask} (h : Follows u task) (hu : u.onMaint MaintTask.ofJournal) :
    task.ofJournal = true := by
  cases h with
  | load _ _ _ _ hmaint => exact absurd hmaint (State.not_load_of_journal hu)
  | copy _ _ hmaint => exact absurd hmaint (State.not_copy_of_journal hu)
  | plain _ htask => exact MaintTask.ofJournal_of_plain htask
  | target | image | anchor | scan | scanNext => rfl

/-- The recovery goes on with another task of the journal. -/
theorem State.recoveryLaw_runMaint {u : State} (hu : u.recoveryLaw) {task : MaintTask} (op : RowOp)
    (htask : ∀ o, u.longOp = some o → o.origin = .start → task.ofJournal = true) :
    (u.runMaint task op).recoveryLaw := by
  intro o ho horigin
  have ho' : u.longOp = some o := by simpa using ho
  obtain ⟨hkind, hphase, _, hjournal⟩ := hu o ho' horigin
  refine ⟨hkind, hphase, by simpa using htask o ho' horigin, ?_⟩
  simpa [State.nSlots] using hjournal

/-- No recovery is under way. -/
theorem State.recoveryLaw_of_none {u : State} (h : ∀ o, u.longOp = some o → o.origin ≠ .start) : u.recoveryLaw :=
  fun o ho horigin => absurd horigin (h o ho)

theorem Course.recoveryLaw {s t : State} (h : Course s t) (hc : s.configLaw) (hs : s.recoveryLaw) : t.recoveryLaw := by
  induction h with
  | refl => exact hs
  | quiet _ hview ih => exact State.recoveryLaw_of_view hview ih
  | stage _ _ _ ih | empty _ _ ih | build _ _ _ ih => exact ih
  | mark _ ih =>
    intro o ho horigin
    obtain ⟨hkind, hphase, hmaint, hjournal⟩ := ih o ho horigin
    exact ⟨hkind, hphase, hmaint, hjournal.imp id fun ⟨hrolling, _⟩ => ⟨hrolling, rfl⟩⟩
  | take _ o _ horigin => exact State.recoveryLaw_of_none fun o' ho => Option.some.inj ho ▸ horigin
  | close | dropClose => exact State.recoveryLaw_of_none fun o ho => by cases ho
  | execute _ o _ _ hop hwaiting _ _ _ _ ih =>
    refine State.recoveryLaw_of_none fun o' ho horigin => ?_
    obtain rfl := Option.some.inj ho
    have hphase := (ih o hop horigin).2.1
    simp [hwaiting] at hphase
  | beginCopy _ o _ _ hop hwaiting _ _ _ _ ih =>
    refine State.recoveryLaw_of_none fun o' ho horigin => ?_
    obtain rfl : { o with phase := .executing } = o' := by simpa using ho
    have hphase := (ih o hop horigin).2.1
    simp [hwaiting] at hphase
  | ask _ task op hfollows ih =>
    exact State.recoveryLaw_runMaint ih op fun o ho horigin => hfollows.ofJournal (ih.works ho horigin)
  | due _ hmaint ih =>
    refine State.recoveryLaw_of_none fun o ho horigin => ?_
    exact State.not_copy_of_journal (ih.works ho horigin) hmaint
  | adopt hcourse r hdue _ hvalid _ ih | adoptEmpty hcourse r hdue _ hvalid ih =>
    refine State.recoveryLaw_of_none fun o ho horigin => ?_
    exact (ih.works ho horigin).ne_none ((hcourse.configLaw hc).adopted hdue hvalid).2
  | adoptFormat hcourse r _ _ _ hdue _ _ hvalid ih =>
    refine State.recoveryLaw_of_none fun o ho horigin => ?_
    exact (ih.works (by simpa [State.emptyJournal] using ho) horigin).ne_none
      ((hcourse.configLaw hc).adopted hdue hvalid).2
  | loaded _ _ _ o _ hmaint _ hlatch ih =>
    refine State.recoveryLaw_of_none fun o' ho horigin => ?_
    cases hlatch with
    | same => exact State.not_load_of_journal (ih.works ho horigin) hmaint
    | taken o hline =>
      obtain rfl := Option.some.inj ho
      simp [hline] at horigin
  | loadedScan _ r o c op _ _ _ hid =>
    intro o' ho _
    obtain rfl : o = o' := by simpa using ho
    simp only [LongOp.identity, Prod.mk.injEq] at hid
    exact ⟨hid.1, hid.2.2, by simp [MaintTask.ofJournal], .inl (by simp)⟩
  | start hcourse _ _ _ _ hreset ih =>
    refine State.recoveryLaw_of_none fun o ho horigin => ?_
    exact (ih.works (by simpa using ho) horigin).ne_none ((hcourse.configLaw hc).2.2.2.2 hreset).2
  | roll _ _ _ _ _ hmark ih =>
    intro o ho horigin
    obtain ⟨hkind, hphase, hmaint, _⟩ := ih o ho horigin
    exact ⟨hkind, hphase, hmaint, .inr ⟨rfl, hmark⟩⟩
  | @drop u _ task op _ htask ih =>
    have hdropped : u.dropRecord.recoveryLaw := by
      intro o ho horigin
      simpa [State.nSlots] using ih o (by simpa using ho) horigin
    refine State.recoveryLaw_runMaint hdropped op fun o ho horigin => ?_
    obtain hplain | ⟨⟨j, rfl⟩, _⟩ := htask
    · exact MaintTask.ofJournal_of_plain hplain
    · rfl

theorem JobMove.recoveryLaw {u t : State} (h : JobMove u t) (hc : u.configLaw) (hu : u.recoveryLaw) :
    t.recoveryLaw := by
  have hrest : ∀ {j op} {w : State}, Asks w j op t → w.recoveryLaw → t.recoveryLaw := fun hasks hw =>
    State.recoveryLaw_of_view hasks.view hw
  cases h with
  | stays hview => exact State.recoveryLaw_of_view hview hu
  | reads _ _ _ hasks => exact hrest hasks hu
  | appends _ _ _ _ _ _ _ _ hasks => exact hrest hasks hu
  | appendsOn _ _ _ _ _ _ _ _ _ hasks => exact hrest hasks hu
  | appendsNext _ _ _ _ _ _ _ _ _ _ _ _ hw _ _ _ hasks => exact hrest hasks (hw ▸ hu)
  | writesRecorded _ _ _ _ _ _ _ _ _ _ _ _ _ hasks => exact hrest hasks hu
  | writes _ _ _ _ _ _ hasks => exact hrest hasks hu
  | writesOn _ _ _ _ _ _ _ hasks => exact hrest hasks hu
  | ends hcourse | endsRecorded _ _ _ _ _ _ _ _ _ hcourse => exact hcourse.recoveryLaw hc hu

theorem exec_recoveryLaw {c : Instr} {s t : State} (he : exec c s = .next t) (hc : s.configLaw) (hs : s.recoveryLaw) :
    t.recoveryLaw := by
  have hconfig : ∀ m, (s.freed m).configLaw := fun m => State.configLaw_of_view (s.freed_keeps m) hc
  have hfreed : ∀ m, (s.freed m).recoveryLaw := fun m => State.recoveryLaw_of_view (s.freed_keeps m) hs
  cases exec_progress he with
  | course h => exact h.recoveryLaw hc hs
  | taken v _ hview h => exact h.recoveryLaw (State.configLaw_of_view hview hc) (State.recoveryLaw_of_view hview hs)
  | front f m _ _ h => exact h.recoveryLaw (hconfig m) (hfreed m)
  | maint f m _ _ h => exact h.recoveryLaw (hconfig m) (hfreed m)
  | goesOn f g _ _ _ hview => exact State.recoveryLaw_of_view hview hs
  | reset left => exact State.recoveryLaw_of_none fun o ho => by cases ho

/-- The recovery law is kept by every step, as O38 asks. -/
theorem step_recoveryLaw {s t : State} (hc : s.configLaw) (hs : s.recoveryLaw) (h : step s = .next t) :
    t.recoveryLaw := by
  have hboth := step_keeps (P := fun s => s.configLaw ∧ s.recoveryLaw) (fun _ _ => id)
    (fun he ⟨hc, hs⟩ => ⟨exec_configLaw he hc, exec_recoveryLaw he hc hs⟩) ⟨hc, hs⟩ h
  exact hboth.2

end Sys2Proof.Machine

/-! SUPPORT. The frames of the link read back (R177, R178, R202): the frame CRC of a body over itself is 0, and of no other
byte. -/
namespace Sys2Proof.Machine

set_option Elab.async false

/-! ## The frame CRC -/

/-- A shifted register tells the register it came from, by the bit that was fed: the polynomial's lowest bit is 1, and a
shift leaves 0 there (R177). -/
theorem crcStep_eq_shift_iff (reg x : Byte) : crcStep 0x07#8 reg x.msb = x <<< 1 ↔ reg = x := by
  refine ⟨fun h => ?_, fun h => by simp [crcStep, h]⟩
  unfold crcStep at h
  split at h
  · have hbit := congrArg (fun v : Byte => v.getLsbD 0) h
    simp at hbit
  · next hmsb =>
    have hmsb' : x.msb = reg.msb := by simpa using hmsb
    apply BitVec.eq_of_getLsbD_eq
    intro i hi
    obtain hlast | hlt : i = 7 ∨ i < 7 := by omega
    · subst hlast
      exact hmsb'.symm
    · have hbit := congrArg (fun v : Byte => v.getLsbD (i + 1)) h
      have hlt' : i + 1 < 8 := by omega
      simpa only [BitVec.getLsbD_shiftLeft, hlt', decide_true, Bool.true_and, Bool.not_false, Nat.add_sub_cancel,
        show ¬ i + 1 < 1 from by omega, decide_false] using hbit

/-- The lower bits of a byte bring a register to 0 exactly when the register holds them at its top (R177). -/
theorem crcFeed_eq_zero_iff (message : Byte) : ∀ (n : Nat) (reg : Byte), n ≤ 8 →
    (crcFeed 0x07#8 message n reg = 0#8 ↔ reg = message <<< (8 - n)) := by
  intro n
  induction n with
  | zero => exact fun reg _ => by simp [crcFeed]
  | succ n ih =>
    intro reg hn
    have hmsb : (message <<< (8 - (n + 1))).msb = message.getLsbD n := by
      have hn7 : 7 - (8 - (n + 1)) = n := by omega
      simp only [BitVec.msb_eq_getLsbD_last, BitVec.getLsbD_shiftLeft, hn7]
      simp
    have hshift : (message <<< (8 - (n + 1))) <<< 1 = message <<< (8 - n) := by
      rw [← BitVec.shiftLeft_add]
      congr 1
      omega
    rw [crcFeed, ih _ (by omega), ← hshift, ← hmsb]
    exact crcStep_eq_shift_iff _ _

/-- A frame checks exactly when its last byte is the frame CRC of the bytes before it (R177). -/
theorem frameCrc_append_eq_zero_iff (body : List Byte) (b : Byte) :
    frameCrc (body ++ [b]) = 0#8 ↔ frameCrc body = b := by
  simpa [frameCrc, List.foldl_append] using crcFeed_eq_zero_iff b 8 (frameCrc body) le_rfl

end Sys2Proof.Machine

namespace Sys2Proof

set_option Elab.async false

/-! ## The commands of the table -/

/-- The family of the link's frames, for every command (R178, R202). -/
theorem linkFrame_statement (i : Instr) : Laws.LinkFrame.Statement i := by
  cases i
  case status => exact Laws.LinkFrame.status
  case ident => exact Laws.LinkFrame.ident
  case completion => exact Laws.LinkFrame.completion
  case faultPop => exact Laws.LinkFrame.faultPop
  case cfgRead => exact Laws.LinkFrame.cfgRead _ _
  case cfgStage => exact Laws.LinkFrame.cfgStage _ _
  case cfgCopy => exact Laws.LinkFrame.cfgCopy
  case alertMask => exact Laws.LinkFrame.alertMask _
  case freeze => exact Laws.LinkFrame.freeze _
  case save => exact Laws.LinkFrame.save
  case release => exact Laws.LinkFrame.release
  case undo => exact Laws.LinkFrame.undo
  case commit => exact Laws.LinkFrame.commit
  case rollback => exact Laws.LinkFrame.rollback
  case format => exact Laws.LinkFrame.format
  case resume => exact Laws.LinkFrame.resume _
  case apply => exact Laws.LinkFrame.apply
  -- No other command travels on the link.
  all_goals
    intro body h
    cases h

/-- A byte of a CFG_STAGE value is one of the four it is put together from (R202). -/
theorem extract_of_bytes (a b c d : Byte) :
    (a ++ b ++ c ++ d).extractLsb' 24 8 = a ∧ (a ++ b ++ c ++ d).extractLsb' 16 8 = b
      ∧ (a ++ b ++ c ++ d).extractLsb' 8 8 = c ∧ (a ++ b ++ c ++ d).extractLsb' 0 8 = d := by
  refine ⟨?_, ?_, ?_, ?_⟩
  all_goals
    ext k hk
    simp only [BitVec.getElem_extractLsb', BitVec.getLsbD_append]
    repeat' split
    all_goals first | omega | skip
    all_goals rw [← BitVec.getLsbD_eq_getElem]; congr 1; omega

/-- The command that a code and its arguments name has them for its frame's body (R202). The cases are the table's
codes, by how many argument bytes they take. -/
theorem commandBody_of_argumentCount {code : Byte} {args : List Byte} {c : Instr}
    (hcount : argumentCount code = some args.length) (h : commandOf code args = some c) :
    commandBody c = some (code :: args) := by
  unfold argumentCount at hcount
  split at hcount
  case h_18 => cases hcount
  -- CFG_STAGE, whose value is put together from four bytes
  case h_7 hcode =>
    obtain ⟨identifier, value, rfl, hvalue⟩ := List.length_eq_succ_iff.mp (Option.some.inj hcount).symm
    obtain ⟨w, x, y, z, rfl⟩ := List.length_eq_four.mp hvalue
    obtain rfl := byte_eq_ofNat hcode
    obtain rfl := Option.some.inj h
    obtain ⟨hw, hx, hy, hz⟩ := extract_of_bytes w x y z
    show some [_, identifier, _, _, _, _] = _
    rw [hw, hx, hy, hz]
  case h_6 hcode =>
    obtain ⟨selector, identifier, rfl⟩ := List.length_eq_two.mp (Option.some.inj hcount).symm
    obtain rfl := byte_eq_ofNat hcode
    obtain rfl := Option.some.inj h
    rfl
  case h_8 hcode | h_9 hcode | h_16 hcode =>
    obtain ⟨argument, rfl⟩ := List.length_eq_one_iff.mp (Option.some.inj hcount).symm
    obtain rfl := byte_eq_ofNat hcode
    obtain rfl := Option.some.inj h
    rfl
  all_goals
    next hcode =>
      obtain rfl := List.length_eq_zero_iff.mp (Option.some.inj hcount).symm
      obtain rfl := byte_eq_ofNat hcode
      obtain rfl := Option.some.inj h
      rfl

/-- A transfer that is taken as a command of the table has passed the four checks (R178). -/
theorem decodeTransfer_checked {bytes : List Byte} {cut : Bool} {c : Instr} {body : List Byte}
    (h : decodeTransfer bytes cut = some c) (hc : commandBody c = some body) :
    ∃ code rest, bytes = code :: rest ∧ Machine.frameCrc bytes = 0#8 ∧ rest ≠ []
      ∧ argumentCount code = some rest.dropLast.length ∧ commandOf code rest.dropLast = some c := by
  have herror : ∀ c', decodeTransfer bytes cut = some c' → commandBody c' = none → False := fun c' h' hno => by
    obtain rfl := Option.some.inj (h.symm.trans h')
    simp [hno] at hc
  cases bytes with
  | nil => cases h
  | cons code rest =>
    refine ⟨code, rest, rfl, ?_⟩
    by_cases hread : code = 0x5A#8
    · exact (herror (.responseRead _) (by simp [decodeTransfer, hread]; rfl) rfl).elim
    by_cases hfirst : cut = true ∨ rest = []
    · exact (herror _ (decodeTransfer_of_cut_or_single hread hfirst) rfl).elim
    obtain ⟨hcut, hne⟩ := not_or.mp hfirst
    obtain rfl := Bool.not_eq_true _ ▸ hcut
    by_cases hcrc : Machine.frameCrc (code :: rest) = 0#8
    · cases hcode : argumentCount code with
      | none => exact (herror _ (decodeTransfer_of_unknownCode hread hne hcrc hcode) rfl).elim
      | some n =>
        by_cases hlen : rest.length = n + 1
        · have hdrop : rest.dropLast.length = n := by simp [hlen]
          obtain ⟨c', hc', _⟩ := commandOf_of_argumentCount (hdrop.symm ▸ hcode)
          obtain rfl := Option.some.inj (h.symm.trans (decodeTransfer_of_checked hread hcrc hcode hlen hc'))
          exact ⟨hcrc, hne, by rw [hdrop], hc'⟩
        · exact (herror _ (decodeTransfer_of_badLength hread hne hcrc hcode hlen) rfl).elim
    · exact (herror _ (decodeTransfer_of_badCrc hread hne hcrc) rfl).elim

/-- Settles O15, from the families of the table's commands and the frame CRC of a frame, which is 0. -/
theorem linkFramesRoundTrip : Obligations.LinkFramesRoundTrip := by
  constructor
  · intro c frame hframe
    obtain ⟨body, hbody, rfl⟩ := Option.map_eq_some_iff.mp hframe
    obtain ⟨code, args, rfl, hcount, hcommand, hread⟩ := linkFrame_statement c body hbody
    refine decodeTransfer_of_checked (n := args.length) hread ?_ hcount (by simp) (by simpa using hcommand)
    exact (Machine.frameCrc_append_eq_zero_iff (code :: args) _).mpr rfl
  · intro bytes cut c body h hc
    obtain ⟨code, rest, rfl, hcrc, hne, hcount, hcommand⟩ := decodeTransfer_checked h hc
    have hframe : code :: rest = (code :: rest.dropLast) ++ [rest.getLast hne] := by
      rw [List.cons_append, List.dropLast_append_getLast]
    have hlast := (Machine.frameCrc_append_eq_zero_iff (code :: rest.dropLast) (rest.getLast hne)).mp (hframe ▸ hcrc)
    rw [encodeFrame, commandBody_of_argumentCount hcount hcommand, Option.map_some, hlast, ← hframe]

end Sys2Proof

/-! SUPPORT. The Region Map's tables: the lookup of a row in the order of R101, the outcome of a request in the order of
R102, and the examination of a candidate (R3, R103, R132). -/
namespace Sys2Proof.Machine

set_option Elab.async false

/-! ## The lookup of a row -/

/-- The reserved rows: the configuration area, and the journal area of the active configuration (R96, R97). -/
theorem State.reservedRow_iff (s : State) (row : Nat) :
    s.reservedRow row = true ↔
      row < 32 ∨ ∃ c, s.active = some c ∧ c.nSlots ≠ 0#16 ∧ c.base.toNat ≤ row
        ∧ row ≤ c.base.toNat + 1 + 2 * c.nSlots.toNat := by
  have hzero : ∀ n : BitVec 16, n = 0#16 ↔ n.toNat = 0 := fun n => by simp [BitVec.toNat_eq]
  cases hactive : s.active with
  | none => simp [State.reservedRow, hactive]
  | some c =>
    simp only [State.reservedRow, hactive, ConfigRecord.inJournalArea, journalRows, Option.map_some, Option.getD_some,
      Bool.or_eq_true, Bool.and_eq_true, decide_eq_true_eq, Option.some.injEq, exists_eq_left', ne_eq, hzero]
    by_cases h : c.nSlots.toNat = 0
    · simp only [h, if_true, not_true_eq_false, false_and, decide_eq_true_eq, Nat.add_zero, or_false]
      omega
    · simp only [h, if_false, not_false_eq_true, true_and, decide_eq_true_eq]
      omega

/-- The search for a covering entry ends without one exactly when none covers the row. -/
theorem State.coveringEntry_eq_none (s : State) (row : Nat) :
    ∀ l : List (Fin 16), s.coveringEntry row l = none ↔ ∀ i ∈ l, (s.regions[i]).covers row = false
  | [] => by simp [State.coveringEntry]
  | i :: rest => by
    simp only [State.coveringEntry, List.forall_mem_cons]
    split
    · next h => exact iff_of_false (fun hc => by cases hc) (fun hc => by rw [hc.1] at h; cases h)
    · next h => exact (State.coveringEntry_eq_none s row rest).trans (and_iff_right (Bool.not_eq_true _ ▸ h)).symm

/-- The entry that the search finds covers the row. -/
theorem State.covers_of_coveringEntry (s : State) (row : Nat) (i : Fin 16) :
    ∀ l : List (Fin 16), s.coveringEntry row l = some i → (s.regions[i]).covers row = true
  | [], h => by simp [State.coveringEntry] at h
  | k :: rest, h => by
    simp only [State.coveringEntry] at h
    split at h
    · next hk => obtain rfl := Option.some.inj h; exact hk
    · exact State.covers_of_coveringEntry s row i rest h

theorem mem_regionIndexes (i : Fin 16) : i ∈ regionIndexes := by
  revert i
  decide

/-- The first check of a lookup (R101). -/
theorem State.lookup_reserved {s : State} {row : Nat} (h : s.reservedRow row = true) : s.lookup row = .reserved := by
  rw [State.lookup, if_pos h]

/-- The second check of a lookup (R101). -/
theorem State.lookup_of_memSize_le {s : State} {row : Nat} (h : s.reservedRow row = false) (hsize : s.memSize ≤ row) :
    s.lookup row = .notMapped := by
  rw [State.lookup, if_neg (by simp [h]), if_pos hsize]

/-- A row that no entry covers is not mapped (R101). -/
theorem State.lookup_of_uncovered {s : State} {row : Nat} (h : s.reservedRow row = false)
    (hnone : ∀ i : Fin 16, (s.regions[i]).covers row = false) : s.lookup row = .notMapped := by
  have hsearch : s.coveringEntry row regionIndexes = none :=
    (s.coveringEntry_eq_none row _).mpr fun i _ => hnone i
  rw [State.lookup, if_neg (by simp [h]), hsearch]
  split <;> rfl

/-- A row that one entry alone covers is looked up as that entry (R101). -/
theorem State.lookup_of_covered {s : State} {row : Nat} {i : Fin 16} (h : s.reservedRow row = false)
    (hsize : row < s.memSize) (hi : (s.regions[i]).covers row = true)
    (honly : ∀ k : Fin 16, (s.regions[k]).covers row = true → k = i) : s.lookup row = .entry i := by
  rw [State.lookup, if_neg (by simp [h]), if_neg (Nat.not_le.mpr hsize)]
  cases hsearch : s.coveringEntry row regionIndexes with
  | none =>
    exact absurd (hi.symm.trans ((s.coveringEntry_eq_none row _).mp hsearch i (mem_regionIndexes i))) (by decide)
  | some k => rw [honly k (s.covers_of_coveringEntry row k _ hsearch)]

/-! ## The outcome of a request -/

/-- A request of other than eight beats covers one row (R94, R102). -/
theorem State.outcomeOf_oneRow (s : State) (address : Address) {beats : Nat} (h : beats ≠ 8) :
    s.outcomeOf address beats = match s.lookup (rowOf address) with
      | .reserved => .reserved (rowOf address)
      | .notMapped => .notMapped (rowOf address)
      | .entry i => .entry i := by
  rw [State.outcomeOf, secondRow, if_neg h]
  rfl

/-- A request of eight beats covers two rows (R94, R102). -/
theorem State.outcomeOf_twoRows (s : State) (address : Address) :
    s.outcomeOf address 8 = match s.lookup (rowOf address), s.lookup (rowOf address + 1) with
      | .reserved, _ => .reserved (rowOf address)
      | _, .reserved => .reserved (rowOf address + 1)
      | .notMapped, _ => .notMapped (rowOf address)
      | _, .notMapped => .notMapped (rowOf address + 1)
      | .entry i, .entry j => if i = j then .entry i else .split (rowOf address) := by
  rw [State.outcomeOf, secondRow, if_pos rfl]
  rfl

/-! ## The examination of a candidate -/

section
variable {s : State} {r : Request} {i : Fin 16}

/-- A write that the mode or the freeze flag forbids is refused (R103). -/
theorem State.classify_writeProtected (h : s.outcomeOf r.address r.length = .entry i) (hwrite : r.isRead = false)
    (hforbidden : (s.regions[i]).mode = .readOnly ∨ s.freeze[i] = true) (ahead : Bool) :
    s.classify r ahead = .refuse .writeProtected (rowOf r.address) := by
  rw [State.classify, h]
  dsimp only
  rw [if_pos]
  simpa [hwrite] using hforbidden

/-- What mode and freeze flag allow proceeds but in a JOURNALED region (R103, R132). -/
theorem State.classify_of_allowed (h : s.outcomeOf r.address r.length = .entry i)
    (hallowed : r.isRead = true ∨ ((s.regions[i]).mode ≠ .readOnly ∧ s.freeze[i] = false)) (ahead : Bool) :
    s.classify r ahead =
      if (s.regions[i]).mode = .journaled then
        match trafficFor s.journal r.isRead ahead with
        | .proceeds => .proceed i
        | .held => .hold
        | .refused => .refuse .journalUnavailable (rowOf r.address)
      else .proceed i := by
  have hcheck : ¬ (!r.isRead && ((s.regions[i]).mode == .readOnly || s.freeze[i])) = true := by
    obtain hread | ⟨hmode, hfreeze⟩ := hallowed
    · simp [hread]
    · rw [beq_eq_false_iff_ne.mpr hmode, hfreeze]
      simp
  rw [State.classify, h]
  exact if_neg hcheck

end

/-- Settles O20: the lookup check by check, the outcome from the lookups of its rows, and the examination from the
outcome. -/
theorem requestsMeetTheirRegions : Obligations.RequestsMeetTheirRegions := by
  refine ⟨⟨fun s row => ?lookup, fun s address beats => ?outcome⟩, fun s r ahead i hi => ⟨?writeProtected, ?allowed⟩,
    fun s r ahead row => ?refused⟩
  case lookup =>
    rw [← s.reservedRow_iff, Bool.not_eq_true]
    exact ⟨State.lookup_reserved, fun h => ⟨State.lookup_of_memSize_le h, State.lookup_of_uncovered h,
      fun hsize i hi honly => State.lookup_of_covered h hsize hi honly⟩⟩
  case outcome =>
    refine ⟨fun h => ?one, ?two⟩
    case one =>
      rw [s.outcomeOf_oneRow address h]
      exact ⟨fun h => by rw [h], fun h => by rw [h], fun i h => by rw [h]⟩
    case two =>
      rw [s.outcomeOf_twoRows address]
      refine ⟨fun h => by rw [h], fun h h' => ?second, fun h h' => ?notFirst, fun i h h' => by rw [h, h'],
        fun i k h h' => by rw [h, h']⟩
      case second =>
        rw [h']
        cases hfirst : s.lookup (rowOf address) with
        | reserved => exact absurd hfirst h
        | notMapped => rfl
        | entry i => rfl
      case notFirst =>
        rw [h]
        cases hsecond : s.lookup (rowOf address + 1) with
        | reserved => exact absurd hsecond h'
        | notMapped => rfl
        | entry i => rfl
  case writeProtected => exact fun hwrite hforbidden => State.classify_writeProtected hi hwrite hforbidden ahead
  case allowed =>
    intro hallowed
    rw [State.classify_of_allowed hi hallowed]
    refine ⟨fun hmode => if_neg hmode, fun hmode => ?_⟩
    rw [if_pos hmode]
    cases s.journal with
    | draining => cases r.isRead <;> cases ahead <;> rfl
    | committing => cases r.isRead <;> rfl
    | opened | undoing | rollingBack | scanning | formatting | broken _ | absent _ => rfl
  case refused => exact ⟨fun h => by rw [State.classify, h], fun h => by rw [State.classify, h],
    fun h => by rw [State.classify, h]⟩

end Sys2Proof.Machine

/-! SUPPORT. Words packed from pieces of one width, and the pieces read back; with them the bytes of a burst (R94, R111,
R134, R141), and the check value as the check of its message bit by bit (R92). -/
namespace Sys2Proof.Machine

set_option Elab.async false

/-! ## Packed words -/

/-- A word packed from pieces of one width, the first piece highest. -/
def packed (w W : Nat) (l : List (BitVec w)) : BitVec W :=
  l.foldl (fun acc x => (acc <<< w) ||| x.setWidth W) 0#W

theorem packed_concat (w W : Nat) (l : List (BitVec w)) (x : BitVec w) :
    packed w W (l ++ [x]) = (packed w W l <<< w) ||| x.setWidth W := by
  simp [packed]

/-- A piece put below a word is its lowest piece. -/
theorem extract_push_zero {w W : Nat} (acc : BitVec W) (x : BitVec w) (h : w ≤ W) :
    ((acc <<< w) ||| x.setWidth W).extractLsb' 0 w = x := by
  apply BitVec.eq_of_getLsbD_eq
  intro i hi
  have hW : i < W := by omega
  simp [hi, hW]

/-- The other pieces of the word have moved up by one. -/
theorem extract_push_succ {w W k : Nat} (acc : BitVec W) (x : BitVec w) (h : w * (k + 2) ≤ W) :
    ((acc <<< w) ||| x.setWidth W).extractLsb' (w * (k + 1)) w = acc.extractLsb' (w * k) w := by
  apply BitVec.eq_of_getLsbD_eq
  intro i hi
  have hstart : w * (k + 1) = w * k + w := by rw [Nat.mul_add, Nat.mul_one]
  have hend : w * (k + 2) = w * k + w + w := by rw [Nat.mul_add]; omega
  have hW : w * (k + 1) + i < W := by omega
  have hlow : ¬ w * (k + 1) + i < w := by omega
  have hx : x.getLsbD (w * (k + 1) + i) = false := BitVec.getLsbD_of_ge _ _ (by omega)
  have hsub : w * (k + 1) + i - w = w * k + i := by omega
  simp only [BitVec.getLsbD_extractLsb', BitVec.getLsbD_or, BitVec.getLsbD_shiftLeft, BitVec.getLsbD_setWidth, hi, hW,
    hlow, hx, hsub, decide_true, decide_false, Bool.not_false, Bool.true_and, Bool.and_false, Bool.or_false]

/-- A piece of a packed word, counted from the last one. -/
theorem extract_packed (w W : Nat) (l : List (BitVec w)) : ∀ k, w * (k + 1) ≤ W →
    (packed w W l).extractLsb' (w * k) w = (l.reverse[k]?).getD 0#w := by
  induction l using List.reverseRec with
  | nil => exact fun k _ => by simp [packed]
  | append_singleton l x ih =>
    intro k hk
    rw [packed_concat]
    cases k with
    | zero => simp [extract_push_zero _ x (by simpa using hk : w ≤ W)]
    | succ k =>
      rw [extract_push_succ _ _ hk, ih k ((Nat.mul_le_mul_left w (by omega)).trans hk)]
      simp

/-- A piece of a packed word, counted from the first one. -/
theorem extract_packed_of_length {w W n k : Nat} {l : List (BitVec w)} {x : BitVec w} (hn : l.length = n + 1)
    (hW : w * (n + 1) ≤ W) (hx : l[k]? = some x) : (packed w W l).extractLsb' (w * (n - k)) w = x := by
  have hk : k < l.length := (List.getElem?_eq_some_iff.mp hx).1
  rw [extract_packed w W l (n - k) ((Nat.mul_le_mul_left w (by omega)).trans hW),
    List.getElem?_reverse (by omega), show l.length - 1 - (n - k) = k by omega, hx]
  rfl

/-! ## The bytes of a row -/

theorem packBytes_eq (l : List Byte) : packBytes l = packed 8 128 l := rfl

/-- Data byte k of a row put together from sixteen bytes. -/
theorem rowByte_packBytes (f : Nat → Byte) {k : Nat} (hk : k < 16) :
    rowByte (packBytes ((List.range 16).map f)) k = f k := by
  rw [packBytes_eq, rowByte]
  exact extract_packed_of_length (by simp) (by simp) (by simp [hk])

/-- Bit k of enables gathered one by one. -/
theorem gather_getLsbD (p : Nat → Bool) {k : Nat} (hk : k < 16) : ∀ n,
    ((List.range n).foldl (fun acc j => if p j then acc ||| (1#16 <<< j) else acc) 0#16).getLsbD k =
      (decide (k < n) && p k)
  | 0 => by simp
  | n + 1 => by
    have ih := gather_getLsbD p hk n
    have hbit : (1#16 <<< n).getLsbD k = decide (k = n) := by
      rw [BitVec.getLsbD_shiftLeft, BitVec.getLsbD_one]
      by_cases hkn : k = n
      · simp [hkn ▸ hk, hkn]
      · have : ¬ (¬ k < n ∧ k - n = 0) := by omega
        simp only [hkn, decide_false]
        by_cases hlt : k < n
        · simp [hlt]
        · simp [show k - n ≠ 0 by omega]
    rw [List.range_succ, List.foldl_append]
    simp only [List.foldl_cons, List.foldl_nil]
    by_cases hkn : k = n
    · subst hkn
      split
      · next h => simp [hbit, h]
      · next h => simp [ih, h]
    · have hlt : k < n + 1 ↔ k < n := by omega
      split
      · simp [ih, hbit, hkn, hlt]
      · simp [ih, hlt]

theorem rowEnables_getLsbD (address : Address) (beats : List Beat) (row : Nat) {k : Nat} (hk : k < 16) :
    (rowEnables address beats row).getLsbD k = (requestByte address beats (16 * row + k)).2 := by
  rw [rowEnables, gather_getLsbD (fun j => (requestByte address beats (16 * row + j)).2) hk 16]
  simp [hk]

/-! ## The bytes of a burst -/

/-- The rows of an acceptable burst are those that hold one of its bytes (R94, R112). -/
theorem mem_rowsOf_iff {address : Address} {beats : Nat} (h : burstAcceptable address beats = true) (row : Nat) :
    row ∈ rowsOf address beats ↔ ∃ k, k < 4 * beats ∧ (address.toNat + k) / 16 = row := by
  obtain ⟨hbeats, halign⟩ := (burstAcceptable_iff address beats).mp h
  have hmem : row ∈ rowsOf address beats ↔ row = address.toNat / 16 ∨ (beats = 8 ∧ row = address.toNat / 16 + 1) := by
    unfold rowsOf secondRow rowOf
    split
    · next h8 => simp [h8]
    · next h8 => simp [h8]
  rw [hmem]
  constructor
  · rintro (hrow | ⟨h8, hrow⟩)
    · exact ⟨0, by omega, by omega⟩
    · exact ⟨16, by omega, by omega⟩
  · rintro ⟨k, hk, hrow⟩
    obtain hb | hb | hb | hb := hbeats <;> subst hb <;> omega

/-- Byte k of beat i stands 4i + k above the burst's address (R94). -/
theorem requestByte_of_beat (address : Address) {beats : List Beat} {i k : Nat} {b : Beat} (hb : beats[i]? = some b)
    (hk : k < 4) : requestByte address beats (address.toNat + 4 * i + k) = (beatByte b.data k, b.enable.getLsbD k) := by
  have hdiv : (address.toNat + 4 * i + k - address.toNat) / 4 = i := by omega
  have hmod : (address.toNat + 4 * i + k - address.toNat) % 4 = k := by omega
  rw [requestByte, if_neg (by omega), hdiv, hmod, hb]

/-- No byte outside the burst is enabled (R94). -/
theorem requestByte_outside {address : Address} {beats : List Beat} {n : Nat}
    (h : n < address.toNat ∨ address.toNat + 4 * beats.length ≤ n) : (requestByte address beats n).2 = false := by
  unfold requestByte
  split
  · rfl
  · next hge =>
    have hnone : beats[(n - address.toNat) / 4]? = none := List.getElem?_eq_none (by omega)
    rw [hnone]

/-- A row's class by its enables (R134). -/
theorem classOf_full_iff (enables : BitVec 16) : classOf enables = .full ↔ ∀ k, k < 16 → enables.getLsbD k = true := by
  have hones : enables = 0xFFFF#16 ↔ ∀ k, k < 16 → enables.getLsbD k = true := by
    have hbits : ∀ k, k < 16 → (0xFFFF#16).getLsbD k = true := by decide
    exact ⟨fun h k hk => h ▸ hbits k hk,
      fun h => BitVec.eq_of_getLsbD_eq fun k hk => by rw [h k hk, hbits k hk]⟩
  rw [← hones, classOf]
  split
  · next h => simp [h]
  · split
    · next h => simp [h]
    · next h => simp [h]

theorem classOf_untouched_iff (enables : BitVec 16) :
    classOf enables = .untouched ↔ ∀ k, k < 16 → enables.getLsbD k = false := by
  have hzero : enables = 0#16 ↔ ∀ k, k < 16 → enables.getLsbD k = false :=
    ⟨fun h k _ => by rw [h, BitVec.getLsbD_zero],
      fun h => BitVec.eq_of_getLsbD_eq fun k hk => by rw [h k hk, BitVec.getLsbD_zero]⟩
  rw [← hzero, classOf]
  split
  · next h => simp [h]
  · next hne =>
    split
    · next h => simp [h]
    · next h => simp [hne]

/-- The bytes of a read's beat come from the rows that were delivered (R111). -/
theorem readBeats_byte (address : Address) {beats : Nat} (delivered : Nat → Option RowData) {i k : Nat} (hi : i < beats)
    (hk : k < 4) :
    ((readBeats address beats delivered)[i]?).map (fun w => beatByte w k) =
      some (match delivered ((address.toNat + 4 * i + k) / 16) with
        | some d => rowByte d ((address.toNat + 4 * i + k) % 16)
        | none => 0x00#8) := by
  have hword : (readBeats address beats delivered)[i]? = some (packed 8 32 ((List.range 4).map fun j =>
      match delivered ((address.toNat + 4 * i + j) / 16) with
        | some d => rowByte d ((address.toNat + 4 * i + j) % 16)
        | none => 0#8)) := by
    simp only [readBeats, packed, List.foldl_map, List.getElem?_map, List.getElem?_range hi, Option.map_some] <;> rfl
  rw [hword, Option.map_some, beatByte]
  exact congrArg some (extract_packed_of_length (by simp) (by simp) (by simp [hk]))

/-- Settles O22: the rows and the bytes of a burst from the byte numbers, and every packed word from its pieces. -/
theorem burstsCoverTheirBytes : Obligations.BurstsCoverTheirBytes := by
  refine ⟨fun address beats h => ⟨fun k hk => (mem_rowsOf_iff h _).mpr ⟨k, hk, rfl⟩,
      fun row hrow => (mem_rowsOf_iff h row).mp hrow⟩,
    fun address beats row k hk => ⟨rowByte_packBytes (fun j => (requestByte address beats (16 * row + j)).1) hk,
      rowEnables_getLsbD address beats row hk⟩,
    fun address beats i k b hb hk => requestByte_of_beat address hb hk,
    fun address beats n h => requestByte_outside h,
    fun enables => ⟨classOf_full_iff enables, classOf_untouched_iff enables⟩,
    fun old new enables k hk => ?merge,
    fun address beats delivered i k hi hk => readBeats_byte address delivered hi hk⟩
  case merge => exact rowByte_packBytes (fun j => if enables.getLsbD j then rowByte new j else rowByte old j) hk

/-! ## The check value -/

/-- The lower `n` bits of a message, most significant first. -/
def bitsOf {m : Nat} (message : BitVec m) (n : Nat) : List Bool := (List.range n).reverse.map fun k => message.getLsbD k

/-- The register is fed with a message bit by bit (R92, R177). -/
theorem crcFeed_eq_foldl {w m : Nat} (poly : BitVec w) (message : BitVec m) : ∀ (n : Nat) (reg : BitVec w),
    crcFeed poly message n reg = (bitsOf message n).foldl (crcStep poly) reg
  | 0, reg => rfl
  | n + 1, reg => by
    have hbits : bitsOf message (n + 1) = message.getLsbD n :: bitsOf message n := by simp [bitsOf, List.range_succ]
    rw [crcFeed, crcFeed_eq_foldl poly message n, hbits, List.foldl_cons]

/-- The bits of a message are those of its bytes, the highest first. -/
theorem bitsOf_bytes {m : Nat} (message : BitVec m) : ∀ n : Nat,
    bitsOf message (8 * n) = (List.range n).reverse.flatMap fun i => bitsOf (message.extractLsb' (8 * i) 8) 8
  | 0 => rfl
  | n + 1 => by
    have hbits : bitsOf (message.extractLsb' (8 * n) 8) 8 =
        ((List.range 8).reverse.map fun k => message.getLsbD (8 * n + k)) := by
      refine List.map_congr_left fun k hk => ?_
      have hk8 : k < 8 := by simpa using hk
      simp [hk8]
    have hsplit : bitsOf message (8 * n + 8) =
        ((List.range 8).reverse.map fun k => message.getLsbD (8 * n + k)) ++ bitsOf message (8 * n) := by
      simp [bitsOf, List.range_add, Function.comp_def]
    rw [Nat.mul_add, Nat.mul_one, hsplit, bitsOf_bytes message n, ← hbits, List.range_succ, List.reverse_concat,
      List.flatMap_cons]

/-- The nineteen bytes of a check value's message: the row number's three and the sixteen data bytes (R92). -/
theorem message_bytes (row : BitVec 24) (data : RowData) :
    (List.range 19).reverse.map (fun i => (row ++ data).extractLsb' (8 * i) 8) =
      [row.extractLsb' 16 8, row.extractLsb' 8 8, row.extractLsb' 0 8] ++ (List.range 16).map (rowByte data) := by
  have hrow : ∀ j, (row ++ data).extractLsb' (8 * (16 + j)) 8 = row.extractLsb' (8 * j) 8 := fun j => by
    rw [Nat.mul_add, BitVec.extractLsb'_append_eq_of_le (Nat.le_add_right _ _), Nat.add_sub_cancel_left]
  have hdata : ∀ j, (row ++ data).extractLsb' (8 * (15 - j)) 8 = rowByte data j := fun j => by
    rw [BitVec.extractLsb'_append_eq_of_add_le (by omega), rowByte]
  have hrange : (List.range 19).reverse =
      ([2, 1, 0] : List Nat).map (fun j => 16 + j) ++ (List.range 16).map fun j => 15 - j := by decide
  rw [hrange, List.map_append, List.map_map, List.map_map]
  exact congrArg₂ _ (List.map_congr_left fun j _ => hrow j) (List.map_congr_left fun j _ => hdata j)

/-- The check value feeds its message byte by byte, each most significant bit first (R92). -/
theorem checkValue_eq_foldl (row : BitVec 24) (data : RowData) :
    checkValue row.toNat data =
      (([row.extractLsb' 16 8, row.extractLsb' 8 8, row.extractLsb' 0 8] ++ (List.range 16).map (rowByte data)).flatMap
        fun b => ([7, 6, 5, 4, 3, 2, 1, 0] : List Nat).map fun k => b.getLsbD k).foldl (crcStep 0x1021#16) 0xFFFF#16 := by
  have hbyte : ∀ b : Byte, bitsOf b 8 = ([7, 6, 5, 4, 3, 2, 1, 0] : List Nat).map fun k => b.getLsbD k := fun _ => rfl
  rw [checkValue, BitVec.ofNat_toNat, BitVec.setWidth_eq, crcFeed_eq_foldl, show 152 = 8 * 19 from rfl, bitsOf_bytes,
    ← message_bytes, List.flatMap_map]
  simp only [hbyte]

/-- Settles O18: the check value from the feed of its message, and the test vector by evaluation. -/
theorem checkValueIsTheCyclicCheck : Obligations.CheckValueIsTheCyclicCheck :=
  ⟨checkValue_eq_foldl, by decide +kernel⟩

end Sys2Proof.Machine

/-! SUPPORT. The rows of the journal and of a configuration copy read back as they were written (R162, R200, R201). -/
namespace Sys2Proof.Machine

set_option Elab.async false

/-! ## Header and anchor rows -/

/-- A header row holds every field of its record (R200). -/
theorem Header.decode_encode (h : Header) : Header.decode h.encode = h := by
  cases h
  simp (decide := true) only [Header.encode, Header.decode, BitVec.extractLsb'_append_eq_of_le,
    BitVec.extractLsb'_append_eq_of_add_le, Nat.reduceSub, BitVec.getLsbD_append, if_true, if_false,
    BitVec.extractLsb'_eq_self, BitVec.getLsbD_ofBool, decide_true, Bool.true_and]

/-- The two unused bits of a header row are 0 (R200). -/
theorem Header.encode_unused (h : Header) : h.encode.extractLsb' 120 2 = 0#2 := by
  simp (decide := true) only [Header.encode, BitVec.extractLsb'_append_eq_of_le,
    BitVec.extractLsb'_append_eq_of_add_le, Nat.reduceSub, BitVec.extractLsb'_eq_self]

/-- An anchor row holds its four fields (R200). -/
theorem Anchor.decode_encode (a : Anchor) : Anchor.decode a.encode = a := by
  cases a
  simp (decide := true) only [Anchor.encode, Anchor.decode, BitVec.extractLsb'_append_eq_of_le,
    BitVec.extractLsb'_append_eq_of_add_le, Nat.reduceSub, BitVec.extractLsb'_eq_self]

/-- The unused bytes of an anchor row are 0 (R200). -/
theorem Anchor.encode_unused (a : Anchor) : a.encode.extractLsb' 0 24 = 0#24 := BitVec.extractLsb'_append_eq_right

/-! ## Words and their pieces -/

/-- A piece of a piece is a piece. -/
theorem extract_extract {n : Nat} (x : BitVec n) {start len a l : Nat} (h : a + l ≤ len) :
    (x.extractLsb' start len).extractLsb' a l = x.extractLsb' (start + a) l := by
  apply BitVec.eq_of_getLsbD_eq
  intro i hi
  have hlen : a + i < len := by omega
  simp [hi, hlen, Nat.add_assoc]

/-- Two words with the same pieces are the same. -/
theorem eq_of_pieces {w n : Nat} {a b : BitVec (w * n)}
    (h : ∀ k < n, a.extractLsb' (w * k) w = b.extractLsb' (w * k) w) : a = b := by
  apply BitVec.eq_of_getLsbD_eq
  intro i hi
  have hw : 0 < w := Nat.pos_of_ne_zero fun hw => by simp [hw] at hi
  have hmod : i % w < w := Nat.mod_lt i hw
  have hbit := congrArg (fun v : BitVec w => v.getLsbD (i % w)) (h (i / w) (Nat.div_lt_of_lt_mul hi))
  simpa only [BitVec.getLsbD_extractLsb', hmod, decide_true, Bool.true_and, Nat.div_add_mod] using hbit

/-! ## The rows of a copy -/

section
variable (c : ConfigRecord)

/-- The rows that an APPLY writes for a record (R170, R201). -/
def copyRows : List RowData := (List.range 16).map (configRowData c)

/-- A row of a copy gives back its bytes 0 to 7 (R201). -/
theorem copyFields_copyRows {i : Nat} (hi : i < 16) : copyFields (copyRows c) i = configFields c i := by
  have hrow : (copyRows c)[i]? = some (configRowData c i) := by simp [copyRows, hi]
  rw [copyFields, hrow, Option.getD_some, configRowData]
  exact BitVec.extractLsb'_append_eq_left

/-- Bytes 8 to 15 of every row are the complement of its bytes 0 to 7 (R201). -/
theorem complementHolds_configRowData (i : Nat) : complementHolds (configRowData c i) = true := by
  rw [complementHolds, configRowData, BitVec.extractLsb'_append_eq_right, BitVec.extractLsb'_append_eq_left]
  exact beq_self_eq_true _

theorem regionModes_eq : regionModes c = packed 2 32 (c.regions.toList.map fun e => e.mode.code) := by
  rw [packed, List.foldl_map]
  rfl

theorem regionRun_eq : regionRun c = packed 48 768 (c.regions.toList.map fun e => e.base ++ e.limit) := by
  rw [packed, List.foldl_map]
  rfl

theorem copyRun_eq (rows : List RowData) :
    copyRun rows = packed 64 768 ((List.range 12).map fun i => copyFields rows (i + 3)) := by
  rw [packed, List.foldl_map]
  rfl

/-- The region run reads back from rows 3 to 14 (R201). -/
theorem copyRun_copyRows : copyRun (copyRows c) = regionRun c := by
  have hpiece : ∀ k < 12, (copyRun (copyRows c)).extractLsb' (64 * k) 64 = (regionRun c).extractLsb' (64 * k) 64 := by
    intro k hk
    have hrow : ((List.range 12).map fun i => copyFields (copyRows c) (i + 3))[11 - k]? =
        some ((regionRun c).extractLsb' (64 * k) 64) := by
      have hlt : 11 - k < 12 := by omega
      have hfields : configFields c (11 - k + 3) = (regionRun c).extractLsb' (64 * k) 64 := by
        have hback : 14 - (11 - k + 3) = k := by omega
        rw [configFields, if_neg (by omega), if_neg (by omega), if_neg (by omega), if_pos (by omega), hback]
      rw [List.getElem?_map, List.getElem?_range hlt, Option.map_some, copyFields_copyRows c (by omega), hfields]
    have := extract_packed_of_length (W := 768) (n := 11) (by simp) (by decide) hrow
    rwa [← copyRun_eq, show 11 - (11 - k) = k by omega] at this
  exact eq_of_pieces (w := 64) (n := 12) hpiece

theorem RegionMode.ofCode_code (m : RegionMode) : RegionMode.ofCode m.code = m := by cases m <;> rfl

theorem AckMode.ofCode_code (m : AckMode) : AckMode.ofCode m.code = m := by cases m <;> rfl

theorem FullPolicy.ofCode_code (p : FullPolicy) : FullPolicy.ofCode p.code = p := by cases p <;> rfl

/-- A region entry reads back (R201). -/
theorem copyRegion_copyRows {e : Nat} (he : e < 16) : copyRegion (copyRows c) e = c.regions[e] := by
  have hlength : c.regions.toList.length = 15 + 1 := by simp
  have hentry : c.regions.toList[e]? = some c.regions[e] := by simp [he]
  have hrun : (regionRun c).extractLsb' (48 * (15 - e)) 48 = c.regions[e].base ++ c.regions[e].limit := by
    rw [regionRun_eq]
    exact extract_packed_of_length (by simp) (by decide) (by rw [List.getElem?_map, hentry, Option.map_some])
  have hmodes : (regionModes c).extractLsb' (2 * (15 - e)) 2 = c.regions[e].mode.code := by
    rw [regionModes_eq]
    exact extract_packed_of_length (by simp) (by decide) (by rw [List.getElem?_map, hentry, Option.map_some])
  have hbase : (copyRun (copyRows c)).extractLsb' (48 * (15 - e) + 24) 24 = c.regions[e].base := by
    rw [copyRun_copyRows, ← extract_extract (regionRun c) (by decide : 24 + 24 ≤ 48), hrun]
    exact BitVec.extractLsb'_append_eq_left
  have hlimit : (copyRun (copyRows c)).extractLsb' (48 * (15 - e)) 24 = c.regions[e].limit := by
    have := extract_extract (regionRun c) (start := 48 * (15 - e)) (by decide : 0 + 24 ≤ 48)
    rw [copyRun_copyRows, ← Nat.add_zero (48 * (15 - e)), ← this, hrun]
    exact BitVec.extractLsb'_append_eq_right
  have hmode : (copyFields (copyRows c) 2).extractLsb' (32 + 2 * (15 - e)) 2 = c.regions[e].mode.code := by
    rw [copyFields_copyRows c (by decide), ← hmodes]
    exact (BitVec.extractLsb'_append_eq_of_le (Nat.le_add_right _ _)).trans (by rw [Nat.add_sub_cancel_left])
  rw [copyRegion, hbase, hlimit, hmode, RegionMode.ofCode_code]

/-- The region entries read back (R201). -/
theorem decodeRecord_regions : (decodeRecord (copyRows c)).regions = c.regions := by
  refine Vector.ext fun e he => ?_
  rw [← copyRegion_copyRows c he]
  unfold decodeRecord
  interval_cases e <;> rfl

/-- The record reads back from its copy (R201). -/
theorem decodeRecord_copyRows : decodeRecord (copyRows c) = c := by
  have hregions := decodeRecord_regions c
  have h0 : copyFields (copyRows c) 0 = configFields c 0 := copyFields_copyRows c (by decide)
  have h1 : copyFields (copyRows c) 1 = configFields c 1 := copyFields_copyRows c (by decide)
  have h15 : copyFields (copyRows c) 15 = configFields c 15 := copyFields_copyRows c (by decide)
  unfold decodeRecord at hregions ⊢
  simp only at hregions
  rw [hregions, h0, h1, h15]
  simp (decide := true) only [configFields, if_true, if_false, BitVec.extractLsb'_append_eq_of_le,
    BitVec.extractLsb'_append_eq_of_add_le, Nat.reduceSub, BitVec.extractLsb'_eq_self, AckMode.ofCode_code,
    FullPolicy.ofCode_code]
  simp only [Nat.reduceAdd, Nat.reduceSub, BitVec.extractLsb'_eq_self]

/-- A copy of a valid record with the signature is VALID (R162). -/
theorem classifyCopy_copyRows (hsignature : c.signature = 0x3D94A07C#32) (hvalid : c.valid = true) :
    classifyCopy (copyRows c) = some c := by
  have hcomplements : (copyRows c).all complementHolds = true := by
    rw [copyRows, List.all_map, List.all_eq_true]
    exact fun i _ => complementHolds_configRowData c i
  have hfixed : c.signature = configSignature := hsignature
  simp only [classifyCopy, decodeRecord_copyRows, hcomplements, hvalid, hfixed, decide_true, Bool.and_self, if_true]

end

/-- Settles O19: each row from its pieces, the region run from the word that its rows hold together. -/
theorem storedRowsReadBack : Obligations.StoredRowsReadBack :=
  ⟨fun h => ⟨h.decode_encode, h.encode_unused⟩, fun a => ⟨a.decode_encode, a.encode_unused⟩, fun c =>
    ⟨decodeRecord_copyRows c, fun i _ => complementHolds_configRowData c i, classifyCopy_copyRows c⟩⟩

end Sys2Proof.Machine

/-! SUPPORT. The arbiter's grants (R154, R156), the taking of a COMMIT with the head it carries (R45, R48), and with it the
settling of the CKPT latch (R72, R189) and the CKPT line's edge (R188). -/
namespace Sys2Proof.Machine

set_option Elab.async false

/-! ## The arbiter -/

/-- The waiting request of a requester is granted when the port is freed, unless the other one's goes first (R156). -/
theorem State.portFreed_front {s : State} {op : RowOp} (hfront : s.waitFront = some op)
    (hfirst : s.waitMaint = none ∨ s.lastServed = .maint) :
    s.portFreed = ({ s with port := .idle, waitFront := none } : State).grant .front op := by
  unfold State.portFreed State.arbitrate
  cases hlast : s.lastServed with
  | front =>
    obtain hmaint | hmaint := hfirst
    · simp [Requester.other, State.waiting, State.setWaiting, hmaint, hfront]
    · rw [hmaint] at hlast
      cases hlast
  | maint => simp [Requester.other, State.waiting, State.setWaiting, hfront]

theorem State.portFreed_maint {s : State} {op : RowOp} (hmaint : s.waitMaint = some op)
    (hfirst : s.waitFront = none ∨ s.lastServed = .front) :
    s.portFreed = ({ s with port := .idle, waitMaint := none } : State).grant .maint op := by
  unfold State.portFreed State.arbitrate
  cases hlast : s.lastServed with
  | front => simp [Requester.other, State.waiting, State.setWaiting, hmaint]
  | maint =>
    obtain hfront | hfront := hfirst
    · simp [Requester.other, State.waiting, State.setWaiting, hmaint, hfront]
    · rw [hfront] at hlast
      cases hlast

/-- With no request waiting the port becomes IDLE (R156). -/
theorem State.portFreed_idle {s : State} (hfront : s.waitFront = none) (hmaint : s.waitMaint = none) :
    s.portFreed = { s with port := .idle } := by
  unfold State.portFreed State.arbitrate
  cases hlast : s.lastServed <;> simp [Requester.other, State.waiting, hfront, hmaint]

/-- Settles O25: the grant at an IDLE port, the wait at a busy one, and the grant of the freed port. -/
theorem arbiterServesInTurn : Obligations.ArbiterServesInTurn := by
  refine ⟨fun s r op hidle hwait => s.requestPort_idle r op hidle hwait,
    fun s op hbusy => ⟨s.requestPort_busy .front op hbusy, s.requestPort_busy .maint op hbusy⟩,
    fun s => State.portFreed_idle, fun s op hfront hfirst => State.portFreed_front hfront hfirst,
    fun s op hmaint hfirst => State.portFreed_maint hmaint hfirst, fun s hnone => ?unconfigured,
    fun s c hactive => ?configured⟩
  case unconfigured => simp [State.timeoutInForce, State.retriesInForce, hnone]
  case configured => simp [State.timeoutInForce, State.retriesInForce, hactive]

/-! ## Taking a COMMIT -/

section
variable {s : State}

/-- The boundary that a taking marks lies one number behind the next one (R46, R117). -/
theorem State.ahead_of_last {e : Entry} (hmark : s.mark = some (s.nextAcceptance - 1#32)) :
    s.ahead e = decide (1 ≤ (s.nextAcceptance - e.number).toNat) := by
  have hback : s.nextAcceptance - (s.nextAcceptance - 1#32) = 1#32 := by bv_omega
  simp [State.ahead, hmark, State.distance, hback]

/-- A head that does not wait for space does not wait ahead of a boundary. -/
theorem State.headWaitsAhead_of_not_parked (h : ¬ s.headParked) : s.headWaitsAhead = false := by
  unfold State.headWaitsAhead
  cases hqueue : s.queue with
  | nil => rfl
  | cons e rest =>
    have hstate : e.state ≠ .spaceWait := fun hc => h ⟨e, by rw [hqueue]; rfl, hc⟩
    simp [hstate]

/-- A head in space-wait waits ahead of the boundary when it is ahead of it. -/
theorem State.headWaitsAhead_of_parked {h : Entry} {rest : List Entry} (hqueue : s.queue = h :: rest)
    (hwait : h.state = .spaceWait) : s.headWaitsAhead = s.ahead h := by
  simp [State.headWaitsAhead, hqueue, hwait]

/-- The state after a long operation is taken in OPEN (R45, R46, R125): its record is created, DRAINING is entered and the
boundary is marked at the last accepted write. -/
def State.draining (s : State) (kind : OpKind) (origin : Origin) (skip : Bool) : State :=
  { s with
    longOp := some (LongOp.created kind origin skip), journal := .draining, readHeld := false, headHeld := false
    mark := some (s.nextAcceptance - 1#32) }

theorem State.startOperation_opened (hopen : s.journal = .opened) (kind : OpKind) (origin : Origin) (skip : Bool) :
    s.startOperation kind origin skip = s.draining kind origin skip := by
  simp only [State.startOperation, hopen, if_true]
  rfl

/-- Every entry is ahead of the boundary that its taking marks, when its number lies behind the next one (R117, R125). -/
theorem State.ahead_draining (kind : OpKind) (origin : Origin) (skip : Bool) (e : Entry) :
    (s.draining kind origin skip).ahead e = decide (1 ≤ (s.nextAcceptance - e.number).toNat) :=
  State.ahead_of_last (s := s.draining kind origin skip) rfl

theorem State.headWaitsAhead_draining {h : Entry} {rest : List Entry} (hqueue : s.queue = h :: rest)
    (hwait : h.state = .spaceWait) (hnumbers : ∀ e ∈ s.queue, 1 ≤ (s.nextAcceptance - e.number).toNat) (kind : OpKind)
    (origin : Origin) (skip : Bool) : (s.draining kind origin skip).headWaitsAhead = true := by
  rw [State.headWaitsAhead_of_parked (s := s.draining kind origin skip) hqueue hwait, State.ahead_draining]
  exact decide_eq_true (hnumbers h (by rw [hqueue]; exact List.mem_cons_self))

/-- A COMMIT taken in OPEN with a head in space-wait carries it, with every entry of the queue (R48, R127). -/
theorem State.carry_draining {h : Entry} {rest : List Entry} (hqueue : s.queue = h :: rest)
    (hnumbers : ∀ e ∈ s.queue, 1 ≤ (s.nextAcceptance - e.number).toNat) (kind : OpKind) (origin : Origin)
    (skip : Bool) :
    (s.draining kind origin skip).carry =
      { s.draining kind origin skip with
        parked := none, headHeld := false
        longOp := some { LongOp.created kind origin skip with carried := s.queue.length }
        queue := { h with state := .notStarted } :: rest, mark := some (h.number - 1#32) } := by
  have hall : (s.draining kind origin skip).queue.filter (s.draining kind origin skip).ahead = s.queue :=
    List.filter_eq_self.mpr fun e he => by
      rw [State.ahead_draining]
      exact decide_eq_true (hnumbers e he)
  unfold State.carry
  split
  · next hnil => exact absurd (hqueue.symm.trans hnil) (by simp)
  · next h' rest' hcons =>
    obtain ⟨rfl, rfl⟩ := List.cons.inj (hqueue.symm.trans hcons)
    rw [hall]
    rfl

/-- A COMMIT from the line is taken as one that the latch starts (R48, R188). -/
theorem State.takeOperation_commit (hopen : s.journal = .opened) (origin : Origin) :
    s.takeOperation .commit origin false = s.takeCommit origin := by
  unfold State.takeOperation State.takeCommit
  rw [State.startOperation_opened hopen]
  rfl

/-- A COMMIT with no head in space-wait leaves the queue (R45, R48). -/
theorem State.takeCommit_of_not_parked (hopen : s.journal = .opened) (h : ¬ s.headParked) (origin : Origin) :
    s.takeCommit origin = s.draining .commit origin false := by
  unfold State.takeCommit
  rw [State.startOperation_opened hopen]
  exact if_neg (ne_true_of_eq_false (State.headWaitsAhead_of_not_parked (s := s.draining .commit origin false) h))

/-- A COMMIT carries a head in space-wait (R48, R127). -/
theorem State.takeCommit_of_parked (hopen : s.journal = .opened) {h : Entry} {rest : List Entry}
    (hqueue : s.queue = h :: rest) (hwait : h.state = .spaceWait)
    (hnumbers : ∀ e ∈ s.queue, 1 ≤ (s.nextAcceptance - e.number).toNat) (origin : Origin) :
    s.takeCommit origin = (s.draining .commit origin false).carry := by
  unfold State.takeCommit
  rw [State.startOperation_opened hopen]
  exact if_pos (State.headWaitsAhead_draining hqueue hwait hnumbers .commit origin false)

end

/-- Settles O24: a CLEAR latch, and a PENDING one by the journal state and the head. -/
theorem pendingCheckpointIsSettled : Obligations.PendingCheckpointIsSettled := by
  intro s
  have hset : s.ckptLatch = true → s.settleLatch =
      if s.journal = .opened then ({ s with ckptLatch := false } : State).takeCommit .line
      else ({ s with ckptLatch := false } : State).file s.ckptFault := fun hlatch => by
    rw [State.settleLatch, if_pos hlatch]
    rfl
  refine ⟨fun hclear => ?clear, fun hlatch hopen hhead => ?taken, fun h rest hlatch hopen hqueue hwait hnumbers => ?carried,
    fun hlatch hjournal => ?dropped⟩
  case clear => rw [State.settleLatch, if_neg (by simp [hclear])]
  case taken =>
    rw [hset hlatch, if_pos hopen,
      State.takeCommit_of_not_parked (s := { s with ckptLatch := false }) hopen hhead .line]
    rfl
  case carried =>
    rw [hset hlatch, if_pos hopen,
      State.takeCommit_of_parked (s := { s with ckptLatch := false }) hopen hqueue hwait hnumbers .line,
      State.carry_draining (s := { s with ckptLatch := false }) hqueue hnumbers]
    rfl
  case dropped => rw [hset hlatch, if_neg hjournal]; rfl

/-! ## The CKPT line -/

section
variable {s : State}

/-- A request is latched in STARTING, and while a long operation is in progress (R188). -/
theorem State.checkpointRequest_latched
    (h : s.operating = .starting ∨ (s.operating ≠ .unconfigured ∧ s.longOp ≠ none)) :
    s.checkpointRequest = s.latchCkpt := by
  unfold State.checkpointRequest
  obtain hstarting | ⟨hconfigured, hsome⟩ := h
  · rw [hstarting]
  · cases hop : s.operating with
    | unconfigured => exact absurd hop hconfigured
    | starting => rfl
    | running | quiescing | quiesced => exact if_pos (Option.isSome_iff_ne_none.mpr hsome)

/-- A request is dropped in UNCONFIGURED, and while the journal is not OPEN (R188, R190). -/
theorem State.checkpointRequest_dropped
    (h : s.operating = .unconfigured ∨ (s.operating ≠ .starting ∧ s.longOp = none ∧ s.journal ≠ .opened)) :
    s.checkpointRequest = s.file s.ckptFault := by
  unfold State.checkpointRequest
  obtain hunconfigured | ⟨hstarting, hnone, hjournal⟩ := h
  · rw [hunconfigured]
  · cases hop : s.operating with
    | starting => exact absurd hop hstarting
    | unconfigured => rfl
    | running | quiescing | quiesced => simp [hnone, hjournal]

/-- A request is taken as a COMMIT otherwise (R188). -/
theorem State.checkpointRequest_taken (hstarting : s.operating ≠ .starting) (hconfigured : s.operating ≠ .unconfigured)
    (hnone : s.longOp = none) (hopen : s.journal = .opened) : s.checkpointRequest = s.takeCommit .line := by
  rw [← State.takeOperation_commit hopen]
  unfold State.checkpointRequest
  cases hop : s.operating with
  | starting => exact absurd hop hstarting
  | unconfigured => exact absurd hop hconfigured
  | running | quiescing | quiesced => simp [hnone, hopen]

end

/-- Settles O54: the edge raises the level, and its request is latched, dropped or taken. -/
theorem checkpointEdgeIsDecided : Obligations.CheckpointEdgeIsDecided := by
  intro s hreset
  have hedge : exec .ckptEdge s = .next ({ s with ckptHigh := true } : State).checkpointRequest := by
    simp [exec, execCkptEdge, hreset]
  rw [hedge]
  refine ⟨fun hstarting => ?inStarting, fun hconfigured hsome => ?inOperation, fun h => ?dropped,
    fun hstarting hconfigured hnone hopen hhead => ?taken,
    fun h rest hstarting hconfigured hnone hopen hqueue hwait hnumbers => ?carried⟩
  case inStarting =>
    rw [State.checkpointRequest_latched (s := { s with ckptHigh := true }) (.inl hstarting)]
    rfl
  case inOperation =>
    rw [State.checkpointRequest_latched (s := { s with ckptHigh := true }) (.inr ⟨hconfigured, hsome⟩)]
    rfl
  case dropped =>
    rw [State.checkpointRequest_dropped (s := { s with ckptHigh := true }) h, State.file_eq, State.file_eq]
    rfl
  case taken =>
    rw [State.checkpointRequest_taken (s := { s with ckptHigh := true }) hstarting hconfigured hnone hopen,
      State.takeCommit_of_not_parked (s := { s with ckptHigh := true }) hopen hhead]
    rfl
  case carried =>
    rw [State.checkpointRequest_taken (s := { s with ckptHigh := true }) hstarting hconfigured hnone hopen,
      State.takeCommit_of_parked (s := { s with ckptHigh := true }) hopen hqueue hwait hnumbers,
      State.carry_draining (s := { s with ckptHigh := true }) hqueue hnumbers]
    rfl

end Sys2Proof.Machine

/-! SUPPORT. Reset and the start's first step (R74, R75, R86), read transfers (R176, R179), the STATUS and IDENT snapshots
(R198, R199), and the records that a read empties (R186, R194). -/
namespace Sys2Proof.Machine

set_option Elab.async false

/-! ## Reset and start -/

/-- No field of the record of zeros holds another value (R166). -/
theorem fieldValue_zero {identifier : Byte} {v : Word} (h : fieldValue ConfigRecord.zero identifier = some v) :
    v = 0#32 := by
  have hregions : ∀ (k : Nat) (f : RegionEntry → Word), f RegionEntry.zero = 0#32 →
      (ConfigRecord.zero.regions[k]?).map f = some v → v = 0#32 := by
    intro k f hf hk
    have hentry : ConfigRecord.zero.regions[k]? = if k < 16 then some RegionEntry.zero else none :=
      Vector.getElem?_replicate
    rw [hentry] at hk
    split at hk
    · exact (Option.some.inj hk).symm.trans hf
    · cases hk
  unfold fieldValue at h
  split at h
  case h_13 =>
    split at h
    · exact hregions _ _ rfl h
    · split at h
      · exact hregions _ _ rfl h
      · split at h
        · exact hregions _ _ rfl h
        · cases h
  all_goals exact (Option.some.inj h).symm

/-- A reset leaves the memory device but for the row of a write in flight (R74, R159). -/
theorem State.resetWith_eq (s : State) (left : Residue) : ∃ m,
    s.resetWith left =
      { State.reset with
        pending := s.pending, pfw := s.pfw, ckptHigh := s.ckptHigh, freeCount := s.freeCount, mem := m }
    ∧ (s.port = .idle → m = s.mem)
    ∧ ∀ f, (s.port = .inFlight f ∨ s.port = .aborting f) →
        (∀ row, f.op = .read row → m = s.mem)
        ∧ ∀ row content, f.op = .write row content →
            m = s.mem.write row (residueRow row (s.mem.read row) content left) := by
  have hleft : ∀ f : Flight, (∀ row, f.op = .read row → (s.leaveResidue f.op left).mem = s.mem)
      ∧ ∀ row content, f.op = .write row content →
          (s.leaveResidue f.op left).mem = s.mem.write row (residueRow row (s.mem.read row) content left) := fun f =>
    ⟨fun row h => by rw [h]; rfl, fun row content h => by rw [h]; rfl⟩
  refine ⟨_, rfl, ?_, ?_⟩
  · intro hidle
    simp only [hidle]
  · rintro f (hport | hport) <;> simp only [hport] <;> exact hleft f

/-- Settles O53: the start values by evaluation, the memory device from the attempt in flight, and the first row operation
of the start at an idle port. -/
theorem resetAndStart : Obligations.ResetAndStart := by
  refine ⟨by decide, by decide, by decide, by decide, by decide, ⟨rfl, rfl, rfl, rfl, rfl, fun _ _ => fieldValue_zero⟩,
    by decide, by decide, fun s left => ?reset, fun s level hreset hidle hwait hactive => ?start⟩
  case reset =>
    obtain ⟨m, heq, hkept, hwritten⟩ := s.resetWith_eq left
    exact ⟨m, congrArg Host.Outcome.next heq, hkept, hwritten⟩
  case start =>
    have hgrant := State.requestPort_idle
      { s with inReset := false, ckptHigh := level, maint := some (.loadRow .a 0 [] none) } .maint (.read 0) hidle hwait
    have hload : exec (.start level) s = .next (({ s with
        inReset := false, ckptHigh := level, maint := some (.loadRow .a 0 [] none) } : State).requestPort .maint
          (.read 0)) := by
      simp only [exec, execStart, hreset, if_true]
      rfl
    rw [hload, hgrant]
    simp only [State.grant, State.timeoutInForce, State.retriesInForce, hactive]
    rfl

/-! ## Read transfers -/

/-- In reset the link serves no transfer (R74, R176). -/
theorem State.onLink_of_inReset {s : State} (h : s.inReset = true) (f : State → State) : s.onLink f = s := by
  simp [State.onLink, h]

/-- In reset a command frame leaves no trace (R74). -/
theorem exec_command_inReset {s : State} {c : Instr} {body : List Byte} (h : s.inReset = true)
    (hbody : commandBody c = some body) : exec c s = .next s := by
  cases c
  case status | ident | completion | faultPop | cfgRead | cfgStage | cfgCopy | alertMask | freeze | save | release |
      undo | commit | rollback | resume | format | apply =>
    exact congrArg Host.Outcome.next (State.onLink_of_inReset h _)
  all_goals cases hbody

/-- Settles O55: the frame that the buffer shifts out, and the link in reset. -/
theorem readTransfersConsumeNothing : Obligations.ReadTransfersConsumeNothing := by
  refine ⟨fun s clocked hreset hclocked => ?read, fun s c body => exec_command_inReset⟩
  have hread : exec (.responseRead clocked) s = .next { s with
      linkOut := 0xC3#8 :: (s.response.frame ++ List.replicate (clocked - 1) 0x00#8).take (clocked - 1) } := by
    simp only [exec, execResponseRead, State.onLink_of_not_inReset hreset, State.readResponse]
    rw [if_neg (by omega)]
    rfl
  refine ⟨fun frame hready => ?_, fun hnone => ?_⟩
  · have hframe : s.response.frame = frame := by rw [hready]; rfl
    rw [hread, hframe]
  · have hframe : s.response.frame = [0x06#8, frameCrc [0x06#8]] := by
      obtain hnone | hpending := hnone
      · rw [hnone]; rfl
      · rw [hpending]; rfl
    rw [hread, hframe]

/-! ## Snapshots -/

/-- The byte of STATUS that counts the queue and shows the pending read (R203). -/
theorem queueByte_eq (pending : Bool) {n : Nat} (hn : n ≤ 8) :
    (BitVec.ofBool pending ++ 0#3 ++ BitVec.ofNat 4 n : BitVec 8) = BitVec.ofNat 8 (n + if pending then 128 else 0) := by
  interval_cases n <;> cases pending <;> rfl

/-- The byte of STATUS that shows the configuration copies (R203). -/
theorem copiesByte_eq (a b : CopyRecord) (designation : Option Copy) :
    (0#4 ++ designationCode designation ++ BitVec.ofBool b.isValid ++ BitVec.ofBool a.isValid : BitVec 8) =
      BitVec.ofNat 8 ((if a = CopyRecord.invalid then 0 else 1) + (if b = CopyRecord.invalid then 0 else 2)
        + match designation with | none => 0 | some Copy.a => 4 | some Copy.b => 8) := by
  have hvalid : ∀ (c : CopyRecord) (n : Nat), (if c = CopyRecord.invalid then 0 else n) = if c.isValid then n else 0 :=
    fun c n => by cases c <;> rfl
  rw [hvalid, hvalid]
  cases a.isValid <;> cases b.isValid <;> rcases designation with _ | (_ | _) <;> rfl

/-- The byte of STATUS that shows the anchor records (R203). -/
theorem anchorsByte_eq (a b : AnchorRecord) :
    (0#4 ++ b.code ++ a.code : BitVec 8) =
      BitVec.ofNat 8 ((match a with | .invalid => 0 | .valid _ => 1 | .mismatched => 2)
        + match b with | .invalid => 0 | .valid _ => 4 | .mismatched => 8) := by
  cases a <;> cases b <;> simp only [AnchorRecord.code] <;> rfl

/-- Settles O56: STATUS field by field, in the order of R203. -/
theorem snapshotsReportTheState : Obligations.SnapshotsReportTheState := by
  refine ⟨⟨fun s hreset => ?status, fun s => ?fields⟩, fun s hreset => ?ident⟩
  case status => simp only [exec, execStatus, State.onLink_of_not_inReset hreset]; rfl
  case ident => simp only [exec, execIdent, State.onLink_of_not_inReset hreset]; rfl
  case fields =>
    simp only [State.statusPayload, bytes4, bytes2, List.cons_append, List.nil_append, List.length_cons, List.length_nil,
      List.getElem?_cons_succ, List.getElem?_cons_zero, List.drop_succ_cons, List.drop_zero, List.take_succ_cons,
      List.take_zero]
    refine ⟨trivial, ?operating, ?journal, ?journalDetail, rfl, rfl, rfl, trivial, fun hlength => ?queue, trivial, trivial,
      trivial, trivial, rfl, trivial, ?copies, ?copyA, ?copyB, ?anchors, ?anchorA, ?anchorB, trivial, ?latch, ?kind, ?origin,
      ?phase⟩
    case operating => show some s.operating.code = _; cases s.operating <;> rfl
    case journal => show some s.journal.code = _; cases s.journal <;> rfl
    case journalDetail =>
      show some (s.journal.absentCode ++ s.journal.actionCode) = _
      cases s.journal with
      | absent reason => cases reason <;> rfl
      | broken action => cases action <;> rfl
      | scanning | opened | draining | committing | rollingBack | undoing | formatting => rfl
    case queue => exact congrArg some (queueByte_eq s.pendingRead.isSome hlength)
    case copies =>
      exact congrArg some (copiesByte_eq s.copyA s.copyB s.designation)
    case copyA => show bytes4 s.copyA.generationOrZero = _; cases s.copyA <;> rfl
    case copyB => show bytes4 s.copyB.generationOrZero = _; cases s.copyB <;> rfl
    case anchors => exact congrArg some (anchorsByte_eq s.anchorA s.anchorB)
    case anchorA => show bytes4 s.anchorA.epochOrZero = _; cases s.anchorA <;> rfl
    case anchorB => show bytes4 s.anchorB.epochOrZero = _; cases s.anchorB <;> rfl
    case latch =>
      show some (flagByte s.ckptLatch false false false false false false false) = _
      cases s.ckptLatch <;> rfl
    case kind =>
      show some ((s.longOp.map fun o => o.kind.code).getD 0#8) = _
      rcases s.longOp with _ | ⟨kind, _, _, _, _, _, _, _⟩
      · rfl
      · cases kind <;> rfl
    case origin =>
      show some ((s.longOp.map fun o => o.origin.code).getD 0#8) = _
      rcases s.longOp with _ | ⟨_, origin, _, _, _, _, _, _⟩
      · rfl
      · cases origin <;> rfl
    case phase =>
      show some ((s.longOp.map fun o => o.phase.code).getD 0#8) = _
      rcases s.longOp with _ | ⟨_, _, phase, _, _, _, _, _⟩
      · rfl
      · cases phase <;> rfl

/-! ## Records -/

/-- The flags of a fault record in one byte (R203). -/
theorem faultFlags_eq (address row slot posted partialDone : Bool) :
    flagByte address row slot posted partialDone false false false =
      BitVec.ofNat 8 ((if address then 1 else 0) + (if row then 2 else 0) + (if slot then 4 else 0)
        + (if posted then 8 else 0) + if partialDone then 16 else 0) := by
  revert address row slot posted partialDone
  decide

/-- The payload of a record that COMPLETION returns (R186, R203). -/
theorem completionPayload_some (c : CompletionRecord) :
    completionPayload (some c) =
      [0x01#8, c.operation.code, c.origin.code, c.result.code, (c.reason.map Reason.code).getD 0x00#8,
          if c.overrun then 0x01#8 else 0x00#8]
        ++ bytes4 c.epochAfter ++ bytes2 (BitVec.ofNat 16 c.restored) ++ bytes2 (BitVec.ofNat 16 c.skipped)
        ++ [BitVec.ofNat 8 c.discarded, BitVec.ofNat 8 c.carried, (c.fault.map FaultKind.code).getD 0x00#8] := by
  have hflag : flagByte c.overrun false false false false false false false = if c.overrun then 0x01#8 else 0x00#8 := by
    cases c.overrun <;> rfl
  rw [completionPayload, hflag]

/-- The payload of a record that FAULT_POP returns (R194, R203). -/
theorem faultPayload_some (f : FaultRecord) (dropped : Byte) (left : Nat) :
    faultPayload (some f) dropped left =
      [0x01#8, f.kind.code, f.source.code,
          BitVec.ofNat 8 ((if f.address.isSome then 1 else 0) + (if f.row.isSome then 2 else 0)
            + (if f.slot.isSome then 4 else 0) + (if f.posted then 8 else 0) + if f.partialDone then 16 else 0)]
        ++ bytes4 ((f.address.getD 0#28).setWidth 32) ++ bytes3 (BitVec.ofNat 24 (f.row.getD 0))
        ++ bytes2 (BitVec.ofNat 16 (f.slot.getD 0)) ++ bytes4 f.epoch ++ [dropped, BitVec.ofNat 8 left] := by
  rw [faultPayload, faultFlags_eq]

/-- Settles O57: the two reads by whether there is a record. -/
theorem recordsAreReadOnce : Obligations.RecordsAreReadOnce := by
  refine ⟨fun s hreset => ⟨fun hnone => ?empty, fun c hsome => ?returned, fun c => rfl⟩,
    fun s hreset => ⟨fun hnil => ?emptyLog, fun f rest hcons => ?popped⟩⟩
  case empty =>
    have hself : { s with completion := none } = s := by rw [← hnone]
    simp only [exec, execCompletion, State.onLink_of_not_inReset hreset, hself, hnone]
    rfl
  case returned =>
    simp only [exec, execCompletion, State.onLink_of_not_inReset hreset, hsome, completionPayload_some]
    rfl
  case emptyLog =>
    simp only [exec, execFaultPop, State.onLink_of_not_inReset hreset, State.popFault, hnil]
    rfl
  case popped =>
    have hempty : (if rest.isEmpty then 0#8 else s.dropped) = if rest = [] then 0#8 else s.dropped := by
      cases rest <;> rfl
    simp only [exec, execFaultPop, State.onLink_of_not_inReset hreset, State.popFault, hcons, faultPayload_some, hempty]
    rfl

end Sys2Proof.Machine

/-! SUPPORT. The fields of a configuration record by their identifiers (R202), read back after they are staged, and the
commands that read and stage them (R166, R167); the decision of FREEZE (R105, R106). -/
namespace Sys2Proof.Machine

set_option Elab.async false

/-! ## Fields by their identifiers -/

/-- A value within a field's width is kept by the field. -/
theorem setWidth_setWidth_of_lt {w v : Nat} {value : BitVec v} (hw : w ≤ v) (h : value.toNat < 2 ^ w) :
    (value.setWidth w).setWidth v = value := by
  apply BitVec.eq_of_toNat_eq
  rw [BitVec.toNat_setWidth, BitVec.toNat_setWidth, Nat.mod_eq_of_lt h, Nat.mod_eq_of_lt (h.trans_le (Nat.pow_le_pow_right (by decide) hw))]

theorem RegionMode.code_ofCode (code : BitVec 2) : (RegionMode.ofCode code).code = code := by
  revert code
  decide

theorem AckMode.code_ofCode (code : BitVec 1) : (AckMode.ofCode code).code = code := by
  revert code
  decide

theorem FullPolicy.code_ofCode (code : BitVec 1) : (FullPolicy.ofCode code).code = code := by
  revert code
  decide

/-- A changed region entry changes no other entry and no other field. -/
theorem ConfigRecord.changeRegion_eq (c : ConfigRecord) (e : Nat) (f : RegionEntry → RegionEntry) : ∃ r,
    c.changeRegion e f = { c with regions := r }
      ∧ ∀ k, r[k]? = if k = e then (c.regions[k]?).map f else c.regions[k]? := by
  unfold ConfigRecord.changeRegion
  split
  · next x hx =>
    refine ⟨_, rfl, fun k => ?_⟩
    have he : e < 16 := by
      by_contra hge
      simp [hge] at hx
    rw [Vector.getElem?_setIfInBounds]
    by_cases hk : k = e
    · subst hk
      simp only [he, if_true, hx, Option.map_some]
    · rw [if_neg (Ne.symm hk), if_neg hk]
  · next hx =>
    refine ⟨c.regions, rfl, fun k => ?_⟩
    split
    · next hk => rw [hk, hx]; rfl
    · rfl

section
variable (c : ConfigRecord) (identifier : Byte) (value : Word)

/-- The field of a region entry that the upper half of an identifier names (R202). -/
def RegionEntry.part (e : RegionEntry) (half : Nat) : Option Word :=
  if half = 4 then some (e.base.setWidth 32)
  else if half = 5 then some (e.limit.setWidth 32)
  else if half = 6 then some (e.mode.code.setWidth 32)
  else none

/-- The region entry with that field set. -/
def RegionEntry.setPart (half : Nat) (value : Word) (e : RegionEntry) : RegionEntry :=
  if half = 4 then { e with base := value.setWidth 24 }
  else if half = 5 then { e with limit := value.setWidth 24 }
  else if half = 6 then { e with mode := RegionMode.ofCode (value.setWidth 2) }
  else e

/-- The region entries are named from 40h on, the entry by the lower half of the identifier (R202). -/
theorem fieldValue_of_ge {identifier : Byte} (h : 0x40 ≤ identifier.toNat) :
    fieldValue c identifier =
      (c.regions[identifier.toNat % 16]?).bind fun e => e.part (identifier.toNat / 16) := by
  have hentry : ∃ e, c.regions[identifier.toNat % 16]? = some e := ⟨_, Vector.getElem?_eq_getElem (Nat.mod_lt _ (by decide))⟩
  obtain ⟨e, he⟩ := hentry
  rw [he, Option.bind_some, RegionEntry.part]
  unfold fieldValue
  split
  case h_13 =>
    split
    · rw [if_pos (by omega), show identifier.toNat - 0x40 = identifier.toNat % 16 by omega, he]; rfl
    · split
      · rw [if_neg (by omega), if_pos (by omega), show identifier.toNat - 0x50 = identifier.toNat % 16 by omega, he]; rfl
      · split
        · rw [if_neg (by omega), if_neg (by omega), if_pos (by omega),
            show identifier.toNat - 0x60 = identifier.toNat % 16 by omega, he]
          rfl
        · rw [if_neg (by omega), if_neg (by omega), if_neg (by omega)]
  all_goals omega

theorem setField_of_ge {identifier : Byte} (h : 0x40 ≤ identifier.toNat) (h7 : identifier.toNat < 0x70) :
    setField c identifier value =
      c.changeRegion (identifier.toNat % 16) (RegionEntry.setPart (identifier.toNat / 16) value) := by
  unfold setField
  split
  case h_11 =>
    split
    · rw [show identifier.toNat - 0x40 = identifier.toNat % 16 by omega, show identifier.toNat / 16 = 4 by omega]; rfl
    · split
      · rw [show identifier.toNat - 0x50 = identifier.toNat % 16 by omega, show identifier.toNat / 16 = 5 by omega]; rfl
      · split
        · rw [show identifier.toNat - 0x60 = identifier.toNat % 16 by omega, show identifier.toNat / 16 = 6 by omega]; rfl
        · omega
  all_goals omega

/-- The widths of the region entries' fields (R160). -/
theorem stagedWidth_of_ge {identifier : Byte} (h : 0x40 ≤ identifier.toNat) {w : Nat}
    (hw : stagedWidth identifier = some w) :
    ((identifier.toNat / 16 = 4 ∨ identifier.toNat / 16 = 5) ∧ w = 24) ∨ (identifier.toNat / 16 = 6 ∧ w = 2) := by
  unfold stagedWidth at hw
  split at hw
  case h_11 =>
    split at hw
    · exact .inl ⟨by omega, (Option.some.inj hw).symm⟩
    · split at hw
      · exact .inr ⟨by omega, (Option.some.inj hw).symm⟩
      · cases hw
  all_goals omega

theorem RegionEntry.part_setPart_same {half w : Nat} (e : RegionEntry)
    (h : ((half = 4 ∨ half = 5) ∧ w = 24) ∨ (half = 6 ∧ w = 2)) (hvalue : value.toNat < 2 ^ w) :
    (e.setPart half value).part half = some value := by
  obtain ⟨rfl | rfl, rfl⟩ | ⟨rfl, rfl⟩ := h
  · exact congrArg some (setWidth_setWidth_of_lt (by decide) hvalue)
  · exact congrArg some (setWidth_setWidth_of_lt (by decide) hvalue)
  · show some ((RegionMode.ofCode (value.setWidth 2)).code.setWidth 32) = some value
    rw [RegionMode.code_ofCode, setWidth_setWidth_of_lt (by decide) hvalue]

theorem RegionEntry.part_setPart_other {half other : Nat} (e : RegionEntry) (h : other ≠ half) :
    (e.setPart half value).part other = e.part other := by
  unfold RegionEntry.setPart
  split
  · next h4 => simp [RegionEntry.part, h4 ▸ h]
  · split
    · next h5 => simp [RegionEntry.part, h5 ▸ h]
    · split
      · next h6 => simp [RegionEntry.part, h6 ▸ h]
      · rfl

/-- A region entry's field that was staged reads back, and no other one changes (R166, R167). -/
theorem fieldValue_setField_region {identifier : Byte} (h : 0x40 ≤ identifier.toNat) {w : Nat}
    (hw : stagedWidth identifier = some w) (hvalue : value.toNat < 2 ^ w) :
    fieldValue (setField c identifier value) identifier = some value
      ∧ ∀ other, other ≠ identifier → fieldValue (setField c identifier value) other = fieldValue c other := by
  have hpart := stagedWidth_of_ge h hw
  obtain ⟨r, hr, hget⟩ :=
    c.changeRegion_eq (identifier.toNat % 16) (RegionEntry.setPart (identifier.toNat / 16) value)
  rw [setField_of_ge c value h (by omega), hr]
  refine ⟨?_, fun other hother => ?_⟩
  · obtain ⟨e, he⟩ : ∃ e, c.regions[identifier.toNat % 16]? = some e :=
      ⟨_, Vector.getElem?_eq_getElem (Nat.mod_lt _ (by decide))⟩
    rw [fieldValue_of_ge _ h]
    simp only [hget, if_true, he, Option.map_some, Option.bind_some]
    exact e.part_setPart_same value hpart hvalue
  · by_cases hlow : other.toNat < 0x40
    · unfold fieldValue
      split
      case h_13 => rw [if_neg (by omega), if_neg (by omega), if_neg (by omega), if_neg (by omega), if_neg (by omega),
        if_neg (by omega)]
      all_goals rfl
    · have hdiff : other.toNat ≠ identifier.toNat := fun hnat => hother (BitVec.eq_of_toNat_eq hnat)
      rw [fieldValue_of_ge _ (by omega), fieldValue_of_ge _ (by omega)]
      simp only [hget]
      split
      · next hentry =>
        cases c.regions[other.toNat % 16]? with
        | none => rfl
        | some e => exact e.part_setPart_other value (by omega)
      · rfl

/-- A field before the region entries that was staged reads back, and no other one changes (R166, R167). -/
theorem fieldValue_setField_single {identifier : Byte} (h : identifier.toNat < 0x40) {w : Nat}
    (hw : stagedWidth identifier = some w) (hvalue : value.toNat < 2 ^ w) :
    fieldValue (setField c identifier value) identifier = some value
      ∧ ∀ other, other ≠ identifier → fieldValue (setField c identifier value) other = fieldValue c other := by
  have hne : ∀ {other : Byte}, other ≠ identifier → other.toNat ≠ identifier.toNat :=
    fun hother hnat => hother (BitVec.eq_of_toNat_eq hnat)
  unfold stagedWidth at hw
  split at hw
  case h_11 =>
    rw [if_neg (by omega), if_neg (by omega)] at hw
    cases hw
  all_goals
    next hn =>
      obtain rfl := Option.some.inj hw
      simp only [setField, hn]
      refine ⟨?_, fun other hother => ?_⟩
      · simp only [fieldValue, hn, AckMode.code_ofCode, FullPolicy.code_ofCode]
        all_goals exact congrArg some (setWidth_setWidth_of_lt (by decide) (hvalue.trans_le (by decide)))
      · have := hne hother
        unfold fieldValue
        split <;> first | rfl | omega

/-- A field that was staged reads back, and no other one changes (R166, R167). -/
theorem fieldValue_setField {identifier : Byte} {w : Nat} (hw : stagedWidth identifier = some w)
    (hvalue : value.toNat < 2 ^ w) :
    fieldValue (setField c identifier value) identifier = some value
      ∧ ∀ other, other ≠ identifier → fieldValue (setField c identifier value) other = fieldValue c other := by
  by_cases h : identifier.toNat < 0x40
  · exact fieldValue_setField_single c value h hw hvalue
  · exact fieldValue_setField_region c value (Nat.not_lt.mp h) hw hvalue

end

/-! ## The commands -/

section
variable {s : State}

/-- Out of reset the link serves CFG_READ, CFG_STAGE, CFG_COPY and FREEZE (R74). -/
theorem exec_cfgRead (hreset : s.inReset = false) (selector identifier : Byte) :
    exec (.cfgRead selector identifier) s = .next (s.readField selector identifier) := by
  simp only [exec, execCfgRead, State.onLink_of_not_inReset hreset]

theorem exec_cfgStage (hreset : s.inReset = false) (identifier : Byte) (value : Word) :
    exec (.cfgStage identifier value) s = .next (s.stageField identifier value) := by
  simp only [exec, execCfgStage, State.onLink_of_not_inReset hreset]

theorem exec_cfgCopy (hreset : s.inReset = false) : exec .cfgCopy s = .next s.copyActive := by
  simp only [exec, execCfgCopy, State.onLink_of_not_inReset hreset]

/-- Without an active configuration its fields have no value, and a name without meaning may be refused as either
(R166). -/
theorem State.readField_unnamed {identifier : Byte} (hnone : s.active = none)
    (hfield : fieldValue s.staging identifier = none) : ∃ reason, (reason = 0x01#8 ∨ reason = 0x04#8)
      ∧ s.readField 0x00#8 identifier = ({ s with freeCount := s.freeCount + 1 } : State).responded 4 0x03#8 [reason] := by
  have hread : s.readField 0x00#8 identifier = ({ s with freeCount := s.freeCount + 1 } : State).respondRefused 4
      (if Config.freeChoice s.freeCount then .state else .invalidField) := by
    rw [State.readField, if_neg (by decide), if_pos rfl, hnone]
    simp [hfield]
  rw [hread]
  split
  · exact ⟨0x01#8, .inl rfl, rfl⟩
  · exact ⟨0x04#8, .inr rfl, rfl⟩

/-- The staging record may not be edited before the load ends and during an APPLY (R167). -/
theorem State.stagingLocked_iff : s.stagingLocked = true ↔
    (s.operating = .starting ∧ s.active = none) ∨ ∃ o, s.longOp = some o ∧ o.kind = .apply := by
  unfold State.stagingLocked State.loadEnded
  cases s.longOp <;> cases s.active <;> simp

end

/-- Settles O58: each answer of CFG_READ, each check of CFG_STAGE and CFG_COPY, and the fields that read back. -/
theorem configurationFieldsAreReadAndStaged : Obligations.ConfigurationFieldsAreReadAndStaged := by
  refine ⟨fun s identifier hreset => ?read, fun s identifier value hreset => ⟨fun h => ?locked, fun hload hop => ?edited⟩,
    fun c identifier value w hw hvalue => fieldValue_setField c value hw hvalue⟩
  case read =>
    simp only [exec_cfgRead hreset]
    refine ⟨fun v hv => ?_, fun hv => ?_, fun c v hc hv => ?_, fun c hc hv => ?_, fun v hnone hv => ?_,
      fun hnone hv => ?_, fun selector h0 h1 => ?_⟩
    · rw [State.readField, if_pos rfl, State.respondField, hv]; rfl
    · rw [State.readField, if_pos rfl, State.respondField, hv]; rfl
    · rw [State.readField, if_neg (by decide), if_pos rfl, hc]
      simp only [State.respondField, hv]
      rfl
    · rw [State.readField, if_neg (by decide), if_pos rfl, hc]
      simp only [State.respondField, hv]
      rfl
    · rw [State.readField, if_neg (by decide), if_pos rfl, hnone]
      simp only [hv, Option.isSome_some, if_true]
      rfl
    · obtain ⟨reason, hreason, heq⟩ := State.readField_unnamed hnone hv
      exact ⟨reason, hreason, congrArg Host.Outcome.next heq⟩
    · rw [State.readField, if_neg h1, if_neg h0]; rfl
  case locked =>
    have hlocked : s.stagingLocked = true := State.stagingLocked_iff.mpr h
    rw [exec_cfgStage hreset, exec_cfgCopy hreset, State.stageField, State.copyActive, if_pos hlocked, if_pos hlocked]
    exact ⟨rfl, rfl⟩
  case edited =>
    have hunlocked : ¬ s.stagingLocked = true := by
      rw [State.stagingLocked_iff]
      rintro (⟨hstarting, hnone⟩ | ⟨o, ho, hkind⟩)
      · exact hload.elim (· hstarting) (· hnone)
      · exact hop o ho hkind
    rw [exec_cfgStage hreset, exec_cfgCopy hreset, State.stageField, State.copyActive, if_neg hunlocked, if_neg hunlocked]
    refine ⟨fun hw => ?_, fun w hw hge => ?_, fun w hw hlt => ?_, fun hnone => ?_, fun c hc => ?_⟩
    · rw [hw]; rfl
    · rw [hw]
      dsimp only
      rw [if_neg (Nat.not_lt.mpr hge)]
      rfl
    · rw [hw]
      dsimp only
      rw [if_pos hlt]
      rfl
    · rw [hnone]; rfl
    · rw [hc]; rfl

end Sys2Proof.Machine

/-! SUPPORT. The decision of FREEZE check by check, and of a deferred one (R105, R106). -/
namespace Sys2Proof.Machine

set_option Elab.async false

section
variable {s : State} {i : Fin 16}

/-- Out of reset the link serves FREEZE (R74). -/
theorem exec_freeze (hreset : s.inReset = false) (region : Byte) :
    exec (.freeze region) s = .next (s.freezeRegion region) := by
  simp only [exec, execFreeze, State.onLink_of_not_inReset hreset]

/-- A region index above 15 names no entry (R105). -/
theorem State.freezeRegion_of_ge {region : Byte} (h : 16 ≤ region.toNat) :
    s.freezeRegion region = s.responded 3 0x03#8 [0x03#8] := by
  rw [State.freezeRegion, dif_neg (Nat.not_lt.mpr h)]
  rfl

/-- The first check: an entry that is OFF or READ_ONLY is not frozen (R105). -/
theorem State.freezeRegion_invalid {region : Byte} (hi : region.toNat = i.val)
    (hmode : (s.regions[i]).mode = .off ∨ (s.regions[i]).mode = .readOnly) :
    s.freezeRegion region = s.responded 3 0x03#8 [0x03#8] := by
  obtain ⟨n, hn⟩ := i
  obtain rfl : region.toNat = n := hi
  rw [State.freezeRegion, dif_pos hn]
  obtain hmode | hmode := hmode <;> rw [hmode] <;> rfl

/-- An entry that is PLAIN or JOURNALED is decided by the other checks (R105). -/
theorem State.freezeRegion_writable {region : Byte} (hi : region.toNat = i.val)
    (hmode : (s.regions[i]).mode = .plain ∨ (s.regions[i]).mode = .journaled) :
    s.freezeRegion region =
      match s.freezeRefusal i with
      | some reason => s.respondRefused 3 reason
      | none => s.acceptFreeze i := by
  obtain ⟨n, hn⟩ := i
  obtain rfl : region.toNat = n := hi
  rw [State.freezeRegion, dif_pos hn]
  obtain hmode | hmode := hmode <;> rw [hmode] <;> rfl

/-- An APPLY is executing (R105). -/
theorem State.applyExecuting_iff :
    (s.longOp.map fun o => (o.kind, o.phase)) = some (.apply, .executing) ↔
      ∃ o, s.longOp = some o ∧ o.kind = .apply ∧ o.phase = .executing := by
  cases s.longOp <;> simp

/-- The second check (R105). -/
theorem State.freezeRefusal_state
    (h : (∃ o, s.longOp = some o ∧ o.kind = .apply ∧ o.phase = .executing)
      ∨ ((s.regions[i]).mode = .journaled ∧ s.journal = .scanning)) : s.freezeRefusal i = some .state := by
  unfold State.freezeRefusal
  dsimp only
  obtain h | ⟨hmode, hscanning⟩ := h
  · rw [if_pos (State.applyExecuting_iff.mpr h)]
  · split
    · rfl
    · rw [if_pos (by simp only [hmode, hscanning]; rfl)]

section
variable (hop : ∀ o, s.longOp = some o → ¬ (o.kind = .apply ∧ o.phase = .executing))
    (hscan : (s.regions[i]).mode = .journaled → s.journal ≠ .scanning)
include hop hscan

/-- The third check (R105). -/
theorem State.freezeRefusal_records :
    s.freezeRefusal i =
      if (s.regions[i]).mode = .journaled && s.recordsInRegion s.regions[i] then some .recordsPresent else none := by
  have hno : ¬ (s.longOp.map fun o => (o.kind, o.phase)) = some (.apply, .executing) := fun hc => by
    obtain ⟨o, ho, hexecuting⟩ := State.applyExecuting_iff.mp hc
    exact hop o ho hexecuting
  unfold State.freezeRefusal
  dsimp only
  rw [if_neg hno, if_neg]
  simp only [Bool.and_eq_true, decide_eq_true_eq, beq_iff_eq]
  exact fun hc => hscan hc.1 hc.2

end

/-- A FREEZE that no check refuses is set at once (R106). -/
theorem State.acceptFreeze_set (h : s.writeStageOf i = false ∨ s.freeze[i] = true) :
    s.acceptFreeze i = ({ s with freeze := s.freeze.set i true } : State).responded 3 0x00#8 [] := by
  rw [State.acceptFreeze, if_neg]
  · rfl
  · obtain h | h := h <;> rw [h] <;> simp

/-- It is deferred while a write job of the region is in its write stage (R106). -/
theorem State.acceptFreeze_deferred (hstage : s.writeStageOf i = true) (hclear : s.freeze[i] = false) :
    s.acceptFreeze i =
      { s with deferredFreeze := some i, response := .pending, linkOut := [0xC3#8, 0x00#8, 0x00#8] } := by
  rw [State.acceptFreeze, if_pos (by rw [hstage, hclear]; rfl)]
  rfl

/-- A deferred FREEZE whose region is out of its write stage is decided (R106). -/
theorem State.decideIfDue_due (hdue : s.deferredFreeze = some i) (hstage : s.writeStageOf i = false) :
    s.decideIfDue = s.decideDeferred i := by
  rw [State.decideIfDue, hdue]
  dsimp only
  rw [hstage]
  rfl

theorem State.decideDeferred_refused
    (h : (s.regions[i]).mode = .journaled ∧ s.recordsInRegion s.regions[i] = true) :
    s.decideDeferred i =
      { s with
        deferredFreeze := none
        response := if s.response = .pending then .ready [0x03#8, 0x06#8, frameCrc [0x03#8, 0x06#8]]
          else s.response } := by
  have hrefused : ((s.regions[i]).mode == .journaled && s.recordsInRegion s.regions[i]) = true := by
    rw [h.1, h.2]; rfl
  unfold State.decideDeferred
  simp only [hrefused, if_true]
  rfl

theorem State.decideDeferred_set
    (h : (s.regions[i]).mode ≠ .journaled ∨ s.recordsInRegion s.regions[i] = false) :
    s.decideDeferred i =
      { s with
        deferredFreeze := none, freeze := s.freeze.set i true
        response := if s.response = .pending then .ready [0x00#8, frameCrc [0x00#8]] else s.response } := by
  have hset : ((s.regions[i]).mode == .journaled && s.recordsInRegion s.regions[i]) = false := by
    obtain h | h := h
    · rw [beq_eq_false_iff_ne.mpr h]; rfl
    · rw [h, Bool.and_false]
  unfold State.decideDeferred
  simp only [hset, Bool.false_eq_true, if_false]
  rfl

end

/-- Settles O51: FREEZE check by check, and the decision of a deferred one. -/
theorem freezeIsDecided : Obligations.FreezeIsDecided := by
  refine ⟨fun s region hreset => ?decided, fun s i hdue hstage => ?deferred⟩
  case decided =>
    rw [exec_freeze hreset]
    refine ⟨fun h => by rw [State.freezeRegion_of_ge h], fun i hi =>
      ⟨fun hmode => by rw [State.freezeRegion_invalid hi hmode], fun hmode => ?_⟩⟩
    rw [State.freezeRegion_writable hi hmode]
    refine ⟨fun h => ?_, fun hop hscan => ?_⟩
    · rw [State.freezeRefusal_state h]
      rfl
    · rw [State.freezeRefusal_records hop hscan]
      refine ⟨fun h => ?_, fun h => ?_⟩
      · rw [if_pos (by rw [h.1, h.2]; rfl)]
        rfl
      · rw [if_neg]
        · exact ⟨fun h => by rw [State.acceptFreeze_set h],
            fun hstage hclear => by rw [State.acceptFreeze_deferred hstage hclear]⟩
        · obtain h | h := h <;> rw [h] <;> simp
  case deferred =>
    have hdecide : exec .freezeDeferredDecision s = .next (s.decideDeferred i) :=
      congrArg Host.Outcome.next (State.decideIfDue_due hdue hstage)
    rw [hdecide]
    exact ⟨fun h => by rw [State.decideDeferred_refused h], fun h => by rw [State.decideDeferred_set h]⟩

end Sys2Proof.Machine

/-! SUPPORT. The long commands: their decision (R45, R168, R183), their taking, and what their drain does to the entries of
the queue at once (R46 to R49, R126, R127). -/
namespace Sys2Proof.Machine

set_option Elab.async false

/-! ## The decision -/

section
variable {s : State} {c : Instr} {kind : OpKind} {length : Nat} {skip : Bool}

/-- A long command's frame is decided as one command, by its kind and its flag (R183, R202). -/
theorem exec_longCommand (hreset : s.inReset = false) (hc : longCommandOf c = some (kind, length, skip)) :
    exec c s = .next (s.longCommand length kind skip) := by
  have hlink : ∀ f : State → State, f s = s.longCommand length kind skip →
      (.next (s.onLink f) : Host.Outcome State Fault Refusal) = .next (s.longCommand length kind skip) := fun f hf => by
    rw [State.onLink_of_not_inReset hreset, hf]
  cases c
  case save | release | undo | commit | rollback | format | apply =>
    cases hc
    exact hlink _ rfl
  case resume argument =>
    refine hlink _ ?_
    dsimp only [longCommandOf] at hc
    unfold State.resumeCommand
    split at hc
    · next h => cases hc; rw [if_pos h]
    · next h => split at hc
                · next h' => cases hc; rw [if_neg h, if_pos h']
                · cases hc
  all_goals cases hc

/-- Only a RESUME carries the skip flag (R202). -/
theorem skip_of_longCommandOf (hc : longCommandOf c = some (kind, length, skip)) (hkind : kind ≠ .resume) :
    skip = false := by
  cases c
  case resume argument =>
    dsimp only [longCommandOf] at hc
    split at hc
    · cases hc; rfl
    · split at hc
      · cases hc; exact absurd rfl hkind
      · cases hc
  all_goals cases hc
  all_goals rfl

/-- The second check: STARTING, or a long operation in progress (R183). -/
theorem State.longCommand_busy (h : s.operating = .starting ∨ s.longOp ≠ none) :
    s.longCommand length kind skip = s.responded length 0x02#8 [] := by
  rw [State.longCommand, if_pos (by simpa [Option.isSome_iff_ne_none] using h)]
  rfl

/-- The third check: UNCONFIGURED takes an APPLY alone (R183). -/
theorem State.longCommand_unconfigured (hop : s.operating = .unconfigured) (hnone : s.longOp = none)
    (hkind : kind ≠ .apply) : s.longCommand length kind skip = s.responded length 0x03#8 [0x01#8] := by
  rw [State.longCommand, if_neg (by simp [hop, hnone]), if_pos (by simp [hop, hkind])]
  rfl

/-- An operating state that takes the command leaves the taking decision to the journal (R45, R183). -/
theorem State.longCommand_decided (hop : s.operating.takesLong kind = true) (hnone : s.longOp = none) :
    s.longCommand length kind skip =
      match takingRefusal s.journal kind with
      | some reason => s.respondRefused length reason
      | none => (s.takeOperation kind .link skip).respond length .started [] := by
  have hstarting : ¬ (decide (s.operating = .starting) || s.longOp.isSome) = true := fun hc => by
    rw [hnone, Option.isSome_none, Bool.or_false, decide_eq_true_eq] at hc
    rw [hc] at hop
    cases hop
  have hconfigured : ¬ (decide (s.operating = .unconfigured) && kind != .apply) = true := fun hc => by
    obtain ⟨hunconfigured, hkind⟩ := Bool.and_eq_true_iff.mp hc
    rw [of_decide_eq_true hunconfigured] at hop
    simp only [OperatingState.takesLong, beq_iff_eq] at hop
    simp [hop] at hkind
  unfold State.longCommand
  exact (if_neg hstarting).trans (if_neg hconfigured)

/-- The journal states in which a command is taken (R45, R168). -/
theorem takingRefusal_of_takes {journal : JournalState} (h : journal.takes kind) : takingRefusal journal kind = none := by
  cases kind
  case save | release | undo | commit | rollback =>
    obtain rfl : journal = .opened := h
    rfl
  case resume =>
    obtain ⟨action, rfl⟩ := h
    rfl
  case format => obtain rfl | ⟨action, rfl⟩ | rfl | rfl := h <;> rfl
  case apply => obtain rfl | ⟨reason, rfl⟩ := h <;> rfl

/-- A command that its journal state takes is answered STARTED (R45, R183). -/
theorem State.longCommand_taken (hop : s.operating.takesLong kind = true) (hnone : s.longOp = none)
    (hjournal : s.journal.takes kind) :
    s.longCommand length kind skip = (s.takeOperation kind .link skip).responded length 0x01#8 [] := by
  rw [State.longCommand_decided hop hnone, takingRefusal_of_takes hjournal]
  rfl

/-- A command that its journal state refuses is answered with the reason (R45, R183). -/
theorem State.longCommand_refused (hop : s.operating.takesLong kind = true) (hnone : s.longOp = none) {reason : Reason}
    (hreason : takingRefusal s.journal kind = some reason) :
    s.longCommand length kind skip = s.responded length 0x03#8 [reason.code] := by
  rw [State.longCommand_decided hop hnone, hreason]
  rfl

/-! ## The discard at a taking -/

/-- A discard takes the chosen entries out of the queue, and takes the held write in where there is room (R47, R126). -/
theorem State.discard_eq (p : Entry → Bool) :
    s.discard p =
      ({ s with
        queue := s.queue.filter fun e => !p e
        headHeld := s.headHeld && !(s.queue.head?.map p).getD false
        parked := if (s.queue.filter p).any (fun e => e.state == .spaceWait) then none else s.parked
        longOp := s.longOp.map fun o => { o with discarded := o.discarded + (s.queue.filter p).length }
        frontResponse := if (s.queue.filter p).any (fun e => e.mark == .completed) then some { okay := true, beats := [] }
          else s.frontResponse } : State).acceptHeldWrite := by
  unfold State.discard
  dsimp only
  by_cases h : (s.queue.filter p).any (fun e => e.mark == .completed) = true <;> simp only [h] <;> rfl

/-- A held write stays held while acceptance is closed or the queue is full (R115). -/
theorem State.acceptHeldWrite_eq_self
    (h : ∀ a b, s.held = some (.write a b) → s.acceptanceOpen = false ∨ s.queueHasRoom = false) :
    s.acceptHeldWrite = s := by
  unfold State.acceptHeldWrite
  split
  · next address beats hheld =>
    rw [if_neg]
    rw [Bool.and_eq_true_iff]
    rintro ⟨hopen, hroom⟩
    obtain hc | hc := h address beats hheld
    · simp [hopen] at hc
    · simp [hroom] at hc
  · rfl
  · rfl

/-- A discard that chooses no entry changes nothing. -/
theorem State.discard_none {p : Entry → Bool} (h : ∀ e ∈ s.queue, p e = false)
    (hheld : ∀ a b, s.held = some (.write a b) → s.acceptanceOpen = false ∨ s.queueHasRoom = false) :
    s.discard p = s := by
  have hremoved : s.queue.filter p = [] := List.filter_eq_nil_iff.mpr fun e he => by rw [h e he]; decide
  have hkept : (s.queue.filter fun e => !p e) = s.queue := List.filter_eq_self.mpr fun e he => by rw [h e he]; rfl
  have hhead : (s.headHeld && !(s.queue.head?.map p).getD false) = s.headHeld := by
    cases hq : s.queue with
    | nil => simp
    | cons e rest => simp [h e (by rw [hq]; exact List.mem_cons_self)]
  have hop : (s.longOp.map fun o => { o with discarded := o.discarded + ([] : List Entry).length }) = s.longOp := by
    cases s.longOp <;> rfl
  rw [State.discard_eq, hremoved, hkept, hhead, hop]
  exact State.acceptHeldWrite_eq_self hheld

/-! ## The taking -/

/-- What a taking makes of the state before its drain acts (R45, R46). -/
theorem State.startOperation_eq (origin : Origin) :
    s.startOperation kind origin skip =
      { s with
        longOp := some (LongOp.created kind origin skip)
        journal := if s.journal = .opened then .draining else s.journal
        readHeld := if s.journal = .opened then false else s.readHeld
        headHeld := if s.journal = .opened then false else s.headHeld
        mark := some (s.nextAcceptance - 1#32) } := by
  by_cases hopen : s.journal = .opened
  · rw [State.startOperation_opened hopen]
    simp only [hopen, if_true]
    rfl
  · unfold State.startOperation
    simp only [hopen, if_false]
    rfl

/-- A taking that discards nothing and finds no head in space-wait marks the boundary alone (R45, R47). -/
theorem State.takeOperation_quiet (hhead : ¬ s.headParked)
    (hdiscard : (kind = .rollback ∨ (kind = .undo ∧ s.stack ≠ [])) →
      ∀ e ∈ s.queue, e.state = .taken ∨ s.resolvesJournaled e.address e.beats.length = false)
    (hheld : ∀ a b, s.held = some (.write a b) → s.acceptanceOpen = false ∨ s.queueHasRoom = false) (origin : Origin) :
    s.takeOperation kind origin skip = s.startOperation kind origin skip := by
  have hqueue : (s.startOperation kind origin skip).queue = s.queue := by rw [State.startOperation_eq]
  have hparked : ¬ (s.startOperation kind origin skip).headParked := by
    rintro ⟨e, he, hwait⟩
    exact hhead ⟨e, hqueue ▸ he, hwait⟩
  have hdrain : (s.startOperation kind origin skip).drainAction = s.startOperation kind origin skip :=
    State.drainAction_eq_self _ (.inr (State.headWaitsAhead_of_not_parked hparked))
  have hnone : (kind = .rollback ∨ (kind = .undo ∧ s.stack ≠ [])) →
      (s.startOperation kind origin skip).discard (s.startOperation kind origin skip).discardable =
        s.startOperation kind origin skip := fun hkind => by
    refine State.discard_none (fun e he => ?_) fun a b hh => ?_
    · obtain htaken | hresolves := hdiscard hkind e (hqueue ▸ he)
      · simp [State.discardable, htaken]
      · have : (s.startOperation kind origin skip).resolvesJournaled e.address e.beats.length = false := by
          rw [State.startOperation_eq]
          exact hresolves
        rw [State.discardable, this, Bool.and_false]
    · rw [State.startOperation_eq] at hh ⊢
      exact hheld a b hh
  unfold State.takeOperation
  cases kind
  case rollback =>
    dsimp only
    rw [hnone (.inl rfl), hdrain]
  case undo =>
    have hstack : (s.startOperation .undo origin skip).stack = s.stack := by rw [State.startOperation_eq]
    dsimp only
    rw [hstack]
    split
    · exact hdrain
    · next hne => rw [hnone (.inr ⟨rfl, by simpa using hne⟩), hdrain]
  case save | release | commit | resume | format | apply => exact hdrain

end

/-- Settles O59: the taking of a command that its states take, and the refusals in the order of R183. -/
theorem longCommandsAreDecided : Obligations.LongCommandsAreDecided := by
  refine ⟨fun c s kind length skip hreset hc hop hnone hjournal hhead hdiscard hheld => ?taken,
    fun c s kind length skip hreset hc => ?refused, fun s skip hreset h0 h1 => ?argument⟩
  case taken =>
    rw [exec_longCommand hreset hc, State.longCommand_taken hop hnone hjournal,
      State.takeOperation_quiet hhead hdiscard hheld, State.startOperation_eq]
  case refused =>
    rw [exec_longCommand hreset hc]
    refine ⟨fun h => by rw [State.longCommand_busy h], fun hop hnone hkind => by
      rw [State.longCommand_unconfigured hop hnone hkind], fun hop hnone action hjournal hresume hformat => ?_,
      fun hop hnone hjournal hkind => ?_, fun hop hnone reason hjournal happly hformat => ?_⟩
    · rw [State.longCommand_refused (reason := .state) hop hnone]
      · rfl
      · rw [hjournal]
        cases kind
        case resume => exact absurd rfl hresume
        case format => exact absurd rfl hformat
        all_goals rfl
    · rw [State.longCommand_refused (reason := .state) hop hnone (by rw [hjournal, hkind]; rfl)]
      rfl
    · rw [State.longCommand_refused (reason := .noJournal) hop hnone]
      · rfl
      · rw [hjournal]
        cases kind
        case apply => exact absurd rfl happly
        case format => rw [hformat rfl]; rfl
        all_goals rfl
  case argument =>
    have hresume : exec (.resume skip) s = .next (s.resumeCommand skip) := by
      simp only [exec, execResume, State.onLink_of_not_inReset hreset]
    rw [hresume, State.resumeCommand, if_neg h0, if_neg h1]
    rfl

/-! ## The drain at the taking -/

section
variable {s : State} {kind : OpKind} {skip : Bool}

/-- An operation whose drain finds its head waiting for space, and that neither carries nor discards it, ends at once
(R49). -/
theorem State.takeOperation_refused (hopen : s.journal = .opened) (hconfigured : s.operating ≠ .unconfigured)
    {h : Entry} {rest : List Entry} (hqueue : s.queue = h :: rest) (hwait : h.state = .spaceWait)
    (hnumbers : ∀ e ∈ s.queue, 1 ≤ (s.nextAcceptance - e.number).toNat) {origin : Origin} (horigin : origin ≠ .start)
    {reason : Reason}
    (hkind : (reason = .queueHeld ∧ (kind = .save ∨ kind = .release ∨ kind = .apply ∨ kind = .format))
      ∨ (reason = .noSavepoint ∧ kind = .undo ∧ s.stack = [])) :
    s.takeOperation kind origin skip =
      (s.endedWith .opened ((LongOp.created kind origin skip).record .refused (some reason) none s.epochOrZero)).settleLatch := by
  have hwaits := State.headWaitsAhead_draining hqueue hwait hnumbers kind origin skip
  have hrefuse : (s.draining kind origin skip).refuseOperation reason =
      (s.endedWith .opened ((LongOp.created kind origin skip).record .refused (some reason) none s.epochOrZero)).settleLatch :=
    State.refuseOperation_draining _ (LongOp.created kind origin skip) reason rfl horigin rfl hconfigured
  rw [← hrefuse]
  unfold State.takeOperation
  rw [State.startOperation_opened hopen]
  obtain ⟨rfl, hkind⟩ | ⟨rfl, rfl, hstack⟩ := hkind
  · have hphase : ((LongOp.created kind origin skip).phase = .waiting && (s.draining kind origin skip).headWaitsAhead) =
        true := by rw [hwaits]; rfl
    have haction : (s.draining kind origin skip).drainAction =
        (s.draining kind origin skip).refuseOperation .queueHeld := by
      show (if ((LongOp.created kind origin skip).phase = .waiting && (s.draining kind origin skip).headWaitsAhead) = true
        then _ else _) = _
      rw [if_pos hphase]
      obtain rfl | rfl | rfl | rfl := hkind <;> rfl
    obtain rfl | rfl | rfl | rfl := hkind <;> exact haction
  · have hnone : (s.draining .undo origin skip).stack.isEmpty = true := by
      show s.stack.isEmpty = true
      rw [hstack]; rfl
    dsimp only
    rw [if_pos hnone]
    show (if ((LongOp.created .undo origin skip).phase = .waiting && (s.draining .undo origin skip).headWaitsAhead) = true
      then _ else _) = _
    rw [hwaits, if_pos (by rfl)]
    show (if (s.draining .undo origin skip).stack.isEmpty = true then _ else _) = _
    rw [if_pos hnone]

end

end Sys2Proof.Machine

/-! SUPPORT. The entries of the queue as a long command is taken: carried, discarded, or left behind an operation that ends
at once (R47 to R49, R126, R127). -/
namespace Sys2Proof.Machine

set_option Elab.async false

section
variable {s : State} {kind : OpKind} {skip : Bool}

/-- A taking that meets QUIESCED, QUIESCING or RUNNING takes every kind of command (R183). -/
theorem OperatingState.takesLong_of_serving {o : OperatingState} (h : o = .running ∨ o = .quiescing ∨ o = .quiesced)
    (kind : OpKind) : o.takesLong kind = true := by
  obtain rfl | rfl | rfl := h <;> rfl

/-- OPEN takes every long command but RESUME (R45, R168). -/
theorem JournalState.takes_opened {journal : JournalState} (h : journal = .opened) (hkind : kind ≠ .resume) :
    journal.takes kind := by
  cases kind
  case resume => exact absurd rfl hkind
  case format => exact .inl h
  case apply => exact .inl h
  all_goals exact h

/-- An entry of the queue is discarded at a taking in OPEN when it has not started and resolves to a JOURNALED region
(R47, R126). -/
theorem State.discardable_draining {e : Entry} (hnumber : 1 ≤ (s.nextAcceptance - e.number).toNat) (origin : Origin) :
    (s.draining kind origin skip).discardable e =
      (e.state != .taken && s.resolvesJournaled e.address e.beats.length) := by
  have hresolves : (s.draining kind origin skip).resolvesJournaled e.address e.beats.length =
      s.resolvesJournaled e.address e.beats.length := rfl
  have hstate : (e.state == .notStarted || e.state == .spaceWait) = (e.state != .taken) := by cases e.state <;> rfl
  rw [State.discardable, State.ahead_draining, hresolves, hstate, decide_eq_true hnumber, Bool.true_and]

/-- A write that is taken in has not started, so it waits for no space. -/
theorem State.not_headParked_acceptHeldWrite (h : ∀ e ∈ s.queue, e.state ≠ .spaceWait) :
    ¬ s.acceptHeldWrite.headParked := by
  rintro ⟨e, he, hwait⟩
  have hmem : e ∈ s.acceptHeldWrite.queue := List.mem_of_mem_head? he
  obtain heq | ⟨address, beats, _, _, heq⟩ := s.acceptHeldWrite_cases
  · exact h e (heq ▸ hmem) hwait
  · rw [heq] at hmem
    obtain hold | hnew := List.mem_append.mp hmem
    · exact h e hold hwait
    · obtain rfl := List.mem_singleton.mp hnew
      cases hwait

/-- A discard that takes every entry in space-wait leaves a drain nothing to do at once (R47). -/
theorem State.drainAction_discard {p : Entry → Bool} (h : ∀ e ∈ s.queue, e.state = .spaceWait → p e = true) :
    (s.discard p).drainAction = s.discard p := by
  refine State.drainAction_eq_self _ (.inr (State.headWaitsAhead_of_not_parked ?_))
  rw [State.discard_eq]
  refine State.not_headParked_acceptHeldWrite fun e he hwait => ?_
  obtain ⟨hmem, hkept⟩ := List.mem_filter.mp he
  rw [h e hmem hwait] at hkept
  cases hkept

/-- An UNDO with a savepoint and a ROLLBACK discard what has not started in a JOURNALED region (R47, R126). -/
theorem State.takeOperation_discards (hopen : s.journal = .opened)
    (hkind : (kind = .undo ∧ s.stack ≠ []) ∨ kind = .rollback)
    (hnumbers : ∀ e ∈ s.queue, 1 ≤ (s.nextAcceptance - e.number).toNat)
    (hwaiting : ∀ e ∈ s.queue, e.state = .spaceWait → s.resolvesJournaled e.address e.beats.length = true)
    (origin : Origin) :
    s.takeOperation kind origin skip =
      (s.draining kind origin skip).discard (s.draining kind origin skip).discardable := by
  have haction : ((s.draining kind origin skip).discard (s.draining kind origin skip).discardable).drainAction =
      (s.draining kind origin skip).discard (s.draining kind origin skip).discardable :=
    State.drainAction_discard fun e he hwait => by
      rw [State.discardable_draining (hnumbers e he), hwaiting e he hwait, hwait]
      rfl
  rw [← haction]
  unfold State.takeOperation
  rw [State.startOperation_opened hopen]
  obtain ⟨rfl, hstack⟩ | rfl := hkind
  · have hsome : ¬ (s.draining .undo origin skip).stack.isEmpty = true := fun hempty => hstack (List.isEmpty_iff.mp hempty)
    dsimp only
    rw [if_neg hsome]
  · rfl

/-- What that discard leaves (R47, R126). -/
theorem State.discard_draining (hnumbers : ∀ e ∈ s.queue, 1 ≤ (s.nextAcceptance - e.number).toNat)
    (hwaiting : ∀ e ∈ s.queue, e.state = .spaceWait → s.resolvesJournaled e.address e.beats.length = true)
    (origin : Origin) :
    (s.draining kind origin skip).discard (s.draining kind origin skip).discardable =
      ({ s with
        longOp := some { LongOp.created kind origin skip with
          discarded := (s.queue.filter fun (e : Entry) =>
            e.state != EntryState.taken && s.resolvesJournaled e.address e.beats.length).length }
        journal := .draining, readHeld := false, headHeld := false
        mark := some (s.nextAcceptance - 1#32)
        queue := s.queue.filter fun (e : Entry) =>
          !(e.state != EntryState.taken && s.resolvesJournaled e.address e.beats.length)
        parked := if ∃ e ∈ s.queue, e.state = EntryState.spaceWait then none else s.parked
        frontResponse :=
          if ∃ e ∈ s.queue, e.state ≠ EntryState.taken ∧ s.resolvesJournaled e.address e.beats.length = true
              ∧ e.mark = AckMode.completed then some { okay := true, beats := [] }
          else s.frontResponse } : State).acceptHeldWrite := by
  have hchosen : ∀ e ∈ s.queue, (s.draining kind origin skip).discardable e =
      (e.state != .taken && s.resolvesJournaled e.address e.beats.length) := fun e he =>
    State.discardable_draining (hnumbers e he) origin
  have hremoved : s.queue.filter (s.draining kind origin skip).discardable =
      s.queue.filter fun (e : Entry) => e.state != EntryState.taken && s.resolvesJournaled e.address e.beats.length :=
    List.filter_congr hchosen
  have hkept : (s.queue.filter fun e => !(s.draining kind origin skip).discardable e) =
      s.queue.filter fun (e : Entry) =>
        !(e.state != EntryState.taken && s.resolvesJournaled e.address e.beats.length) :=
    List.filter_congr fun e he => by rw [hchosen e he]
  have hparked : ((s.queue.filter fun (e : Entry) =>
      e.state != EntryState.taken && s.resolvesJournaled e.address e.beats.length).any
        fun e => e.state == .spaceWait) = true ↔ ∃ e ∈ s.queue, e.state = .spaceWait := by
    simp only [List.any_eq_true, List.mem_filter, beq_iff_eq]
    constructor
    · rintro ⟨e, ⟨he, _⟩, hwait⟩
      exact ⟨e, he, hwait⟩
    · rintro ⟨e, he, hwait⟩
      exact ⟨e, ⟨he, by rw [hwaiting e he hwait, hwait]; rfl⟩, hwait⟩
  have hanswered : ((s.queue.filter fun (e : Entry) =>
      e.state != EntryState.taken && s.resolvesJournaled e.address e.beats.length).any
        fun e => e.mark == .completed) = true ↔ ∃ e ∈ s.queue, e.state ≠ .taken
          ∧ s.resolvesJournaled e.address e.beats.length = true ∧ e.mark = .completed := by
    simp only [List.any_eq_true, List.mem_filter, Bool.and_eq_true, bne_iff_ne, beq_iff_eq, and_assoc]
  have hqueue : (s.draining kind origin skip).queue = s.queue := rfl
  rw [State.discard_eq, hqueue, hremoved, hkept]
  simp only [hparked, hanswered]
  congr 1
  simp only [State.draining, LongOp.created, Option.map_some, Nat.zero_add, Bool.false_and]

end

/-- Settles O60: the head in space-wait, by what the command does with it, and the discard of an UNDO or a ROLLBACK. -/
theorem drainMeetsItsEntriesAtTaking : Obligations.DrainMeetsItsEntriesAtTaking := by
  refine ⟨fun c s kind length skip h rest hreset hc hop hnone hopen hqueue hwait hnumbers =>
      ⟨fun hkind => ?held, fun hkind hstack => ?noSavepoint, fun hkind => ?carried⟩,
    fun c s kind hreset hc hop hnone hopen hnumbers hwaiting => ?discarded⟩
  case held =>
    have hresume : kind ≠ .resume := by obtain rfl | rfl | rfl | rfl := hkind <;> decide
    have hconfigured : s.operating ≠ .unconfigured := by obtain hop | hop | hop := hop <;> rw [hop] <;> decide
    rw [exec_longCommand hreset hc, State.longCommand_taken (OperatingState.takesLong_of_serving hop kind) hnone
      (JournalState.takes_opened hopen hresume), State.takeOperation_refused hopen hconfigured hqueue hwait hnumbers
      (by decide) (.inl ⟨rfl, hkind⟩)]
    rfl
  case noSavepoint =>
    subst hkind
    have hconfigured : s.operating ≠ .unconfigured := by obtain hop | hop | hop := hop <;> rw [hop] <;> decide
    rw [exec_longCommand hreset hc, State.longCommand_taken (OperatingState.takesLong_of_serving hop .undo) hnone
      (JournalState.takes_opened hopen (by decide)), State.takeOperation_refused hopen hconfigured hqueue hwait hnumbers
      (by decide) (.inr ⟨rfl, rfl, hstack⟩)]
    rfl
  case carried =>
    subst hkind
    obtain rfl := skip_of_longCommandOf hc (by decide)
    rw [exec_longCommand hreset hc, State.longCommand_taken (OperatingState.takesLong_of_serving hop .commit) hnone
      (JournalState.takes_opened hopen (by decide)), State.takeOperation_commit hopen,
      State.takeCommit_of_parked hopen hqueue hwait hnumbers, State.carry_draining hqueue hnumbers]
    rfl
  case discarded =>
    have hlong : longCommandOf c = some (kind, 2, false) := by
      obtain ⟨rfl, rfl, _⟩ | ⟨rfl, rfl⟩ := hc <;> rfl
    have hkind : (kind = .undo ∧ s.stack ≠ []) ∨ kind = .rollback := by
      obtain ⟨_, hkind, hstack⟩ | ⟨_, hkind⟩ := hc
      · exact .inl ⟨hkind, hstack⟩
      · exact .inr hkind
    have hresume : kind ≠ .resume := by
      obtain ⟨rfl, _⟩ | rfl := hkind <;> decide
    rw [exec_longCommand hreset hlong, State.longCommand_taken (OperatingState.takesLong_of_serving hop kind) hnone
      (JournalState.takes_opened hopen hresume), State.takeOperation_discards hopen hkind hnumbers hwaiting,
      State.discard_draining hnumbers hwaiting]

end Sys2Proof.Machine

/-! SUPPORT. The Front Port Unit: taking requests in, refusing and holding them (R110 to R117, R120), the hold limit (R122,
R123), and what PFW does to them (R83 to R85). -/
namespace Sys2Proof.Machine

set_option Elab.async false

/-! ## Room, and the acceptance of a write -/

section
variable {s : State}

theorem State.ackMode_of_active {c : ConfigRecord} (h : s.active = some c) : s.ackMode = c.ack := by
  simp [State.ackMode, h]

/-- The queue has room for a posted write below eight entries (R115). -/
theorem State.queueHasRoom_posted (h : s.ackMode = .posted) : s.queueHasRoom = true ↔ s.queue.length < 8 := by
  rw [State.queueHasRoom, h, decide_eq_true_eq]

/-- It has room for a completed write when it is empty (R115). -/
theorem State.queueHasRoom_completed (h : s.ackMode = .completed) : s.queueHasRoom = true ↔ s.queue = [] := by
  rw [State.queueHasRoom, h, List.isEmpty_iff]

/-- A posted write joins the queue and is answered at once (R115, R117). -/
theorem State.acceptWrite_posted (h : s.ackMode = .posted) (address : Address) (beats : List Beat) :
    s.acceptWrite address beats =
      { s with
        queue := s.queue ++ [{ address := address, beats := beats, number := s.nextAcceptance, mark := .posted,
                               state := .notStarted, timed := false }]
        nextAcceptance := s.nextAcceptance + 1#32
        frontResponse := some { okay := true, beats := [] } } := by
  unfold State.acceptWrite
  simp only [h]
  rfl

/-- A completed write joins the queue, timed and not yet answered (R115, R117, R122). -/
theorem State.acceptWrite_completed (h : s.ackMode = .completed) (address : Address) (beats : List Beat) :
    s.acceptWrite address beats =
      { s with
        queue := s.queue ++ [{ address := address, beats := beats, number := s.nextAcceptance, mark := .completed,
                               state := .notStarted, timed := true }]
        nextAcceptance := s.nextAcceptance + 1#32 } := by
  unfold State.acceptWrite
  simp only [h]
  rfl

/-! ## Taking a request in -/

/-- An acceptable read becomes the pending read (R120). -/
theorem State.takeIn_read {address : Address} {beats : Nat} (h : burstAcceptable address beats = true) :
    s.takeIn (.read address beats) =
      { s with pendingRead := some { address := address, beats := beats, taken := false }, readHeld := false } :=
  if_pos h

/-- An acceptable write joins the queue while there is room (R115). -/
theorem State.takeIn_write {address : Address} {beats : List Beat} (h : burstAcceptable address beats.length = true)
    (hroom : s.queueHasRoom = true) : s.takeIn (.write address beats) = s.acceptWrite address beats :=
  (if_pos h).trans (if_pos hroom)

/-- Without room an acceptable write is held (R115). -/
theorem State.takeIn_write_full {address : Address} {beats : List Beat}
    (h : burstAcceptable address beats.length = true) (hfull : s.queueHasRoom = false) :
    s.takeIn (.write address beats) = { s with held := some (.write address beats) } :=
  (if_pos h).trans (if_neg (by simp [hfull]))

/-- A burst that is not acceptable is refused with ALIGNMENT (R112). -/
theorem State.takeIn_refused {r : Request} (h : burstAcceptable r.address r.length = false) :
    s.takeIn r = (s.file (frontFault .alignment r.address (some (rowOf r.address)) s.epochOrZero)).answerRefused r :=
  if_neg (by simp [h])

/-- The bus is free and acceptance is open, so a request that arrives is taken in (R110, R114). -/
theorem State.present_takesRequests (h : s.takesRequests) (r : Request) :
    s.present r = ({ s with frontResponse := none } : State).takeIn r := by
  obtain ⟨hreset, hop, hheld, hpending, hposted⟩ := h
  have hfree : s.busFree = true := s.busFree_iff.mpr ⟨hheld, hpending, hposted⟩
  have hopen : s.acceptanceOpen = true := by
    unfold State.acceptanceOpen
    obtain hrunning | ⟨hstarting, hactive⟩ := hop
    · simp [hreset, hrunning]
    · simp [hreset, hstarting, hactive]
  unfold State.present
  rw [if_neg (by simp [hreset, hfree]), if_pos hopen]

end

/-- The beats of a refused request's answer: zeros for a read and none for a write (R111). -/
theorem Request.refusedBeats_eq (r : Request) : r.refusedBeats = List.replicate (if r.isRead then r.length else 0) 0#32 := by
  cases r <;> rfl

/-- Settles O26: an acceptable read, an acceptable write by the room it finds, and the held write. -/
theorem acceptableRequestsAreTakenIn : Obligations.AcceptableRequestsAreTakenIn := by
  refine ⟨fun s address beats h hburst => ?read, fun s address beats c h hactive hburst => ?write,
    fun s address beats c hreset hop hactive hheld => ?heldWrite⟩
  case read =>
    show Host.Outcome.next (s.present (.read address beats)) = _
    rw [State.present_takesRequests h, State.takeIn_read hburst]
  case write =>
    have hack := State.ackMode_of_active (s := { s with frontResponse := none }) hactive
    have hexec : exec (.frontWriteRequest address beats) s =
        .next (({ s with frontResponse := none } : State).takeIn (.write address beats)) :=
      congrArg Host.Outcome.next (State.present_takesRequests h _)
    rw [hexec]
    refine ⟨fun hposted hroom => ?_, fun hcompleted hempty => ?_, fun hfull => ?_⟩
    · rw [State.takeIn_write hburst ((State.queueHasRoom_posted (hack.trans hposted)).mpr hroom),
        State.acceptWrite_posted (hack.trans hposted)]
    · rw [State.takeIn_write hburst ((State.queueHasRoom_completed (hack.trans hcompleted)).mpr hempty),
        State.acceptWrite_completed (hack.trans hcompleted)]
      simp only [hempty, List.nil_append]
    · rw [State.takeIn_write_full hburst]
      rw [Bool.eq_false_iff, ne_eq]
      obtain ⟨hposted, hlength⟩ | ⟨hcompleted, hne⟩ := hfull
      · rw [State.queueHasRoom_posted (hack.trans hposted)]
        exact Nat.not_lt.mpr hlength
      · rw [State.queueHasRoom_completed (hack.trans hcompleted)]
        exact hne
  case heldWrite =>
    have hack := State.ackMode_of_active (s := { s with held := none }) hactive
    have hopen : s.acceptanceOpen = true := by
      unfold State.acceptanceOpen
      obtain hop | hop := hop <;> simp [hreset, hop, hactive]
    have haccept : s.queueHasRoom = true →
        exec .heldWriteAccept s = .next (({ s with held := none } : State).acceptWrite address beats) := fun hroom => by
      show Host.Outcome.next s.acceptHeldWrite = _
      unfold State.acceptHeldWrite
      rw [hheld]
      dsimp only
      rw [if_pos (by rw [hopen, hroom]; rfl)]
    refine ⟨fun hposted hroom => ?_, fun hcompleted hempty => ?_⟩
    · rw [haccept ((State.queueHasRoom_posted (hack.trans hposted)).mpr hroom),
        State.acceptWrite_posted (hack.trans hposted)]
    · rw [haccept ((State.queueHasRoom_completed (hack.trans hcompleted)).mpr hempty),
        State.acceptWrite_completed (hack.trans hcompleted)]
      simp only [hempty, List.nil_append]

/-! ## PFW's edges -/

section
variable {s : State}

/-- PFW's deassertion ends a quiesce and takes the held request in (R85, R114). -/
theorem exec_pfwDeassert_quiesced (hreset : s.inReset = false) (hop : s.operating = .quiescing ∨ s.operating = .quiesced) :
    exec .pfwDeassert s = .next ({ s with pfw := false, operating := .running } : State).takeInHeld := by
  obtain hop | hop := hop <;> simp only [exec, execPfwDeassert, hreset, hop] <;> rfl

theorem exec_pfwAssert_running (hreset : s.inReset = false) (hop : s.operating = .running) :
    exec .pfwAssert s = .next ({ s with pfw := true, operating := .quiescing } : State).dropIfWaiting := by
  simp only [exec, execPfwAssert, hreset, hop]
  rfl

/-- PFW's deassertion takes a held request in, as a request that arrives in RUNNING (R85, R114). -/
theorem exec_pfwDeassert_held {r : Request} (hreset : s.inReset = false)
    (hop : s.operating = .quiescing ∨ s.operating = .quiesced) (hheld : s.held = some r) :
    exec .pfwDeassert s = .next (({ s with pfw := false, operating := .running, held := none } : State).takeIn r) := by
  rw [exec_pfwDeassert_quiesced hreset hop, State.takeInHeld]
  simp only [hheld]

end

/-! ## Requests that are refused or held -/

/-- Settles O27: the burst check, and a request that arrives in each state that does not take it in. -/
theorem requestsAreRefusedOrHeld : Obligations.RequestsAreRefusedOrHeld := by
  have hpresent : ∀ (s : State) (r : Request), s.takesRequests → burstAcceptable r.address r.length = false →
      s.present r =
        { s.file (requestFault .alignment r.address (some (r.address.toNat / 16)) s.epochOrZero) with
          frontResponse := some (refusedResponse r) } := fun s r h hburst => by
    rw [State.present_takesRequests h, State.takeIn_refused hburst, State.file_eq, State.file_eq]
    cases r <;> rfl
  refine ⟨⟨burstAcceptable_iff, fun s address beats h hburst => congrArg Host.Outcome.next (hpresent s _ h hburst),
    fun s address beats h hburst => congrArg Host.Outcome.next (hpresent s _ h hburst),
    fun s r hreset hop hheld hburst => ?deassert⟩, fun s r c hc => ⟨fun hreset => ?inReset, fun hreset hheld hpending hposted =>
      ⟨fun hop => ?held, fun hop => ?notReady⟩⟩⟩
  case deassert =>
    rw [exec_pfwDeassert_held hreset hop hheld, State.takeIn_refused hburst, State.file_eq, State.file_eq]
    cases r <;> rfl
  case inReset =>
    have hself : s.present r = s := if_pos (by rw [hreset]; rfl)
    subst hc
    cases r <;> exact congrArg Host.Outcome.next hself
  case held =>
    have hfree : s.busFree = true := s.busFree_iff.mpr ⟨hheld, hpending, hposted⟩
    have hclosed : ¬ s.acceptanceOpen = true := by
      unfold State.acceptanceOpen
      obtain hop | hop | ⟨hop, hnone⟩ := hop
      · simp [hop]
      · simp [hop]
      · simp [hop, hnone]
    have hconfigured : ¬ s.operating = .unconfigured := by
      obtain hop | hop | ⟨hop, _⟩ := hop <;> rw [hop] <;> decide
    have hholds : s.present r = { s with held := some r, frontResponse := none } := by
      unfold State.present
      rw [if_neg (by simp [hreset, hfree]), if_neg hclosed, if_neg hconfigured]
    subst hc
    cases r <;> exact congrArg Host.Outcome.next hholds
  case notReady =>
    have hfree : s.busFree = true := s.busFree_iff.mpr ⟨hheld, hpending, hposted⟩
    have hrefuses : s.present r =
        { s.file (requestFault .notReady r.address none 0#32) with
          frontResponse := some { okay := false, beats := r.refusedBeats } } := by
      unfold State.present
      rw [if_neg (by simp [hreset, hfree]), if_neg (by simp [State.acceptanceOpen, hop]), if_pos hop]
      rfl
    rw [← r.refusedBeats_eq]
    subst hc
    cases r <;> exact congrArg Host.Outcome.next hrefuses

/-! ## The hold limit -/

section
variable {s : State}

section
variable {c : ConfigRecord} (hreset : s.inReset = false) (hactive : s.active = some c) (hlimit : c.holdLimit ≠ 0#16)
include hreset hactive hlimit

theorem State.holdLimited : ¬ (s.inReset || s.holdLimit == 0#16) = true := by
  simp [hreset, State.holdLimit, hactive, hlimit]

/-- The held request is the timed one (R122). -/
theorem State.timedRequest_held {r : Request} (hheld : s.held = some r) : s.timedRequest = some (.held r) := by
  rw [State.timedRequest, if_neg (State.holdLimited hreset hactive hlimit), hheld]

/-- A pending read is timed until it is taken (R122). -/
theorem State.timedRequest_read {p : PendingRead} (hheld : s.held = none) (hpending : s.pendingRead = some p)
    (htaken : p.taken = false) : s.timedRequest = some (.read p) := by
  rw [State.timedRequest, if_neg (State.holdLimited hreset hactive hlimit), hheld, hpending]
  exact if_neg (by simp [htaken])

/-- A completed entry is timed until it is first taken (R122). -/
theorem State.timedRequest_entry {e : Entry} {rest : List Entry} (hheld : s.held = none) (hpending : s.pendingRead = none)
    (hqueue : s.queue = e :: rest) (hmark : e.mark = .completed) (htimed : e.timed = true) :
    s.timedRequest = some (.entry e) := by
  rw [State.timedRequest, if_neg (State.holdLimited hreset hactive hlimit), hheld, hpending, hqueue]
  exact if_pos (by rw [hmark, htimed]; rfl)

end

end

/-- Settles O28: the expiry by the request that is timed. -/
theorem holdLimitAnswersTheTimedRequest : Obligations.HoldLimitAnswersTheTimedRequest := by
  intro s c hreset hactive hlimit
  refine ⟨fun r hheld => ?held, fun address beats hheld hpending => ?read,
    fun e hheld hpending hqueue hmark htimer => ?entry⟩
  case held =>
    have htimed := State.timedRequest_held hreset hactive hlimit hheld
    have hexec : exec .holdTimerExpiry s =
        .next ((({ s with held := none } : State).file (s.holdFault r.address)).answerRefused r) := by
      show Host.Outcome.next s.holdExpires = _
      rw [State.holdExpires, htimed]
    rw [hexec, State.file_eq, State.file_eq, ← r.refusedBeats_eq]
    rfl
  case read =>
    have htimed := State.timedRequest_read hreset hactive hlimit hheld hpending rfl
    have hexec : exec .holdTimerExpiry s =
        .next ((({ s with pendingRead := none, readHeld := false } : State).file (s.holdFault address)).answer false
          (zeroBeats beats)) := by
      show Host.Outcome.next s.holdExpires = _
      rw [State.holdExpires, htimed]
    rw [hexec, State.file_eq, State.file_eq]
    rfl
  case entry =>
    have htimed := State.timedRequest_entry hreset hactive hlimit hheld hpending hqueue hmark htimer
    have hexec : exec .holdTimerExpiry s = .next ((s.file (s.holdFault e.address)).retireHead false) := by
      show Host.Outcome.next s.holdExpires = _
      rw [State.holdExpires, htimed]
    have hretire : ∀ u : State, u.queue = [e] → u.held = none → u.retireHead false =
        { u with queue := [], headHeld := false, frontResponse := some { okay := false, beats := [] } } := by
      intro u hqueue hheld
      rw [State.retireHead, hqueue]
      simp only [hmark]
      exact State.acceptHeldWrite_eq_self fun a b hc => by
        have hc' : u.held = some (.write a b) := hc
        rw [hheld] at hc'
        cases hc'
    rw [hexec, hretire _ (by simpa using hqueue) (by simpa using hheld)]
    rfl

/-! ## PFW -/

/-- Settles O52: the assertion by the head of the queue, the entry into QUIESCED, and the deassertion by the held
request. -/
theorem powerFailQuiescesAndReturns : Obligations.PowerFailQuiescesAndReturns := by
  refine ⟨fun s => ⟨fun hreset hop hhead => ?entered, fun h rest hreset hop hqueue hwait => ?dropped, fun h => ?level⟩,
    fun s hreset => ⟨fun hop hqueue hpending hjob => ?quiesced, fun hop hheld => ?empty,
      fun address beats hop hheld hburst => ?read, fun address beats hop hheld hburst => ?write, fun h1 h2 => ?other⟩⟩
  case entered =>
    rw [exec_pfwAssert_running hreset hop, State.dropIfWaiting_eq_self]
    exact .inr hhead
  case dropped =>
    rw [exec_pfwAssert_running hreset hop, 
      State.dropIfWaiting_waiting { s with pfw := true, operating := .quiescing } h rest hqueue hwait rfl, State.headDropped,
      State.file_eq, State.file_eq]
    rfl
  case level =>
    have hcheck : ¬ (!s.inReset && s.operating == .running) = true := by
      obtain h | h := h <;> simp [h]
    simp only [exec, execPfwAssert, hcheck]
    rfl
  case quiesced =>
    simp only [exec, execQuiescedEntry, hreset, hop, State.settled, hqueue, hpending, hjob]
    rfl
  case empty =>
    rw [exec_pfwDeassert_quiesced hreset hop, State.takeInHeld]
    simp only [hheld]
  case read =>
    rw [exec_pfwDeassert_held hreset hop hheld, State.takeIn_read hburst]
  case write =>
    rw [exec_pfwDeassert_held hreset hop hheld]
    refine ⟨fun hfull => ?_, fun hroom hposted => ?_, fun hroom hcompleted => ?_⟩
    · rw [State.takeIn_write_full (s := { s with pfw := false, operating := .running, held := none }) hburst hfull, ← hheld]
    · rw [State.takeIn_write (s := { s with pfw := false, operating := .running, held := none }) hburst hroom,
        State.acceptWrite_posted (s := { s with pfw := false, operating := .running, held := none }) hposted]
    · have hempty : s.queue = [] := (State.queueHasRoom_completed hcompleted).mp hroom
      refine ⟨hempty, ?_⟩
      rw [State.takeIn_write (s := { s with pfw := false, operating := .running, held := none }) hburst hroom,
        State.acceptWrite_completed (s := { s with pfw := false, operating := .running, held := none }) 
          hcompleted]
      simp only [hempty, List.nil_append]
  case other =>
    have hcheck : ¬ (!s.inReset && (s.operating == .quiescing || s.operating == .quiesced)) = true := by
      simp [h1, h2]
    simp only [exec, execPfwDeassert, hcheck]
    rfl

end Sys2Proof.Machine

/-! SUPPORT. The part's own events before their conditions hold (R50, R85, R106, R115, R122, R131, R149, R150, R172). -/
namespace Sys2Proof.Machine

set_option Elab.async false

section
variable {s : State}

/-! ## The drain -/

/-- The drain can end for the operation that waits for it, once nothing is ahead of its boundary (R50). -/
theorem State.drainCanEnd_iff : s.drainCanEnd = true ↔ ∃ o, s.drainEnded o := by
  have hnone : s.noneAhead = true ↔ ∀ e ∈ s.queue, s.ahead e = false := by simp [State.noneAhead]
  have hjob : s.journaledJobInProgress = false ↔ ∀ j, s.job = some j → j.mode ≠ .journaled := by
    unfold State.journaledJobInProgress
    cases s.job <;> simp
  unfold State.drainCanEnd State.drainEnded
  cases hop : s.longOp with
  | none => simp
  | some o =>
    simp only [Bool.and_eq_true, Bool.not_eq_true', beq_iff_eq, hnone, hjob, Option.some.injEq, and_assoc]
    constructor
    · rintro ⟨hreset, hrest⟩
      exact ⟨o, hreset, rfl, hrest⟩
    · rintro ⟨_, hreset, rfl, hrest⟩
      exact ⟨hreset, hrest⟩

theorem exec_drainEnd_early (h : ∀ o, ¬ s.drainEnded o) : exec .drainEnd s = .next s :=
  if_neg fun hc => by
    obtain ⟨o, ho⟩ := State.drainCanEnd_iff.mp hc
    exact h o ho

/-! ## The deferred FREEZE -/

/-- A write job is in its write stage while it appends or writes (R106). -/
theorem Job.inWriteStage_of {j : Job} (hwrite : j.request.isRead = false)
    (hphase : (∃ i, j.phase = .writing i) ∨ ∃ i slot sequence step, j.phase = .appending i slot sequence step) :
    j.inWriteStage = true := by
  unfold Job.inWriteStage
  obtain ⟨i, hphase⟩ | ⟨i, slot, sequence, step, hphase⟩ := hphase <;> rw [hwrite, hphase] <;> rfl

/-- A FREEZE waits for the write stage of its region's job (R106). -/
theorem State.decideIfDue_waits
    (h : s.deferredFreeze = none ∨ ∃ j, s.job = some j ∧ j.inWriteStage = true ∧ s.deferredFreeze = some j.region) :
    s.decideIfDue = s := by
  unfold State.decideIfDue
  obtain hnone | ⟨j, hjob, hstage, hregion⟩ := h
  · rw [hnone]
  · have hwaits : s.writeStageOf j.region = true := by
      simp [State.writeStageOf, hjob, hstage]
    rw [hregion]
    exact if_pos hwaits

/-! ## The held write -/

/-- A held write waits for acceptance and for room (R114, R115). -/
theorem State.acceptHeldWrite_waits
    (h : (∀ address beats, s.held ≠ some (.write address beats)) ∨ s.inReset = true
      ∨ (s.operating ≠ .running ∧ (s.operating ≠ .starting ∨ s.active = none))
      ∨ ∃ c, s.active = some c
        ∧ ((c.ack = .posted ∧ 8 ≤ s.queue.length) ∨ (c.ack = .completed ∧ s.queue ≠ []))) :
    s.acceptHeldWrite = s := by
  refine State.acceptHeldWrite_eq_self fun a b hheld => ?_
  obtain hnone | hreset | ⟨hrunning, hstarting⟩ | ⟨c, hactive, hfull⟩ := h
  · exact absurd hheld (hnone a b)
  · exact .inl (by simp [State.acceptanceOpen, hreset])
  · refine .inl ?_
    obtain hstarting | hnone := hstarting
    · simp [State.acceptanceOpen, hrunning, hstarting]
    · simp [State.acceptanceOpen, hrunning, hnone]
  · have hack := State.ackMode_of_active hactive
    refine .inr (Bool.eq_false_iff.mpr ?_)
    obtain ⟨hposted, hlength⟩ | ⟨hcompleted, hne⟩ := hfull
    · rw [ne_eq, State.queueHasRoom_posted (hack.trans hposted)]
      exact Nat.not_lt.mpr hlength
    · rw [ne_eq, State.queueHasRoom_completed (hack.trans hcompleted)]
      exact hne

/-! ## The hold limit -/

/-- No request is timed without a hold limit, and none that has been taken (R122). -/
theorem State.timedRequest_none
    (h : s.inReset = true ∨ (∀ c, s.active = some c → c.holdLimit = 0#16)
      ∨ (s.held = none ∧ (∀ p, s.pendingRead = some p → p.taken = true)
        ∧ ∀ e, s.queue.head? = some e → e.mark = .posted ∨ e.timed = false)) : s.timedRequest = none := by
  unfold State.timedRequest
  obtain hreset | hlimit | ⟨hheld, hpending, hhead⟩ := h
  · rw [if_pos (by rw [hreset]; rfl)]
  · have hzero : s.holdLimit = 0#16 := by
      unfold State.holdLimit
      cases hactive : s.active with
      | none => rfl
      | some c => exact hlimit c hactive
    rw [if_pos (by simp [hzero])]
  · split
    · rfl
    · rw [hheld]
      dsimp only
      cases hp : s.pendingRead with
      | some p => exact if_pos (hpending p hp)
      | none =>
        cases hq : s.queue with
        | nil => rfl
        | cons e rest =>
          refine if_neg ?_
          obtain hposted | huntimed := hhead e (by rw [hq]; rfl)
          · simp [hposted]
          · simp [huntimed]

/-! ## The candidates of the Row Engine -/

/-- A pending read is not offered when it is taken, marked held, or behind a write of one of its rows (R120, R131). -/
theorem State.offeredRead_none
    (h : ∀ p, s.pendingRead = some p → p.taken = true ∨ s.readHeld = true
      ∨ ∃ e ∈ s.queue, ∃ row ∈ rowsOf p.address p.beats, row ∈ rowsOf e.address e.beats.length) :
    s.offeredRead = none := by
  unfold State.offeredRead
  cases hpending : s.pendingRead with
  | none => rfl
  | some p =>
    refine if_neg ?_
    obtain htaken | hheld | ⟨e, he, row, hrow, hcovered⟩ := h p hpending
    · simp [htaken]
    · simp [hheld]
    · have hineligible : s.readEligible p = false := by
        refine Bool.eq_false_iff.mpr fun hc => ?_
        have hall := List.all_eq_true.mp (List.all_eq_true.mp hc e he) row hrow
        have hcontains : e.rows.contains row = true := List.contains_iff_mem.mpr hcovered
        rw [hcontains] at hall
        cases hall
      simp [hineligible]

/-- A head is not offered when it is being performed, waits for space, or is marked held (R118, R131). -/
theorem State.offeredHead_none (h : ∀ e, s.queue.head? = some e → e.state ≠ .notStarted ∨ s.headHeld = true) :
    s.offeredHead = none := by
  unfold State.offeredHead
  cases hqueue : s.queue with
  | nil => rfl
  | cons e rest =>
    refine if_neg ?_
    obtain hstate | hheld := h e (by rw [hqueue]; rfl)
    · simp [hstate]
    · simp [hheld]

/-- With no candidate offered nothing is examined (R131). -/
theorem State.examine_none (hread : s.offeredRead = none) (hhead : s.offeredHead = none) : s.examine = s := by
  rw [State.examine, hread]
  dsimp only
  rw [State.examineOfferedHead, hhead]

end

/-- Settles O49: each event by the condition that it waits for. -/
theorem eventsWaitForTheirConditions : Obligations.EventsWaitForTheirConditions := by
  intro s
  refine ⟨exec_drainEnd_early, fun h => ?activation, fun h => ?freeze, fun h => ?quiesced,
    fun h => congrArg Host.Outcome.next (State.acceptHeldWrite_waits h), fun h => ?hold, fun h => ?job, fun h => ?attempt,
    fun h left => ?abort⟩
  case activation =>
    have hwaits : ¬ (!s.inReset && s.activationDue && s.job.isNone) = true := by
      obtain h | h | h := h <;> simp [h]
    exact congrArg Host.Outcome.next (if_neg hwaits)
  case freeze =>
    refine congrArg Host.Outcome.next (State.decideIfDue_waits (h.imp_right ?_))
    rintro ⟨j, hjob, hwrite, hregion, hphase⟩
    exact ⟨j, hjob, Job.inWriteStage_of hwrite hphase, hregion⟩
  case quiesced =>
    have hwaits : ¬ (!s.inReset && s.operating == .quiescing && s.settled) = true := by
      unfold State.settled
      obtain h | h | h | h | h := h <;> simp [h]
    exact congrArg Host.Outcome.next (if_neg hwaits)
  case hold =>
    refine congrArg Host.Outcome.next ?_
    rw [State.holdExpires, State.timedRequest_none h]
  case job =>
    obtain h | h | h | ⟨hread, hhead⟩ := h
    · exact congrArg Host.Outcome.next (if_neg (by simp [h]))
    · exact congrArg Host.Outcome.next (if_neg (by simp [h]))
    · exact congrArg Host.Outcome.next (if_neg (by simp [h]))
    · have hself := State.examine_none (State.offeredRead_none hread) (State.offeredHead_none hhead)
      refine congrArg Host.Outcome.next ?_
      rw [hself, ite_self]
  case attempt =>
    cases hport : s.port with
    | inFlight f => exact absurd hport (h f)
    | idle | aborting f =>
      exact ⟨by simp only [exec, execAttemptTimerExpiry, hport], fun delivered => by
        simp only [exec, execMemoryAttemptDone, hport], fun left => by simp only [exec, execMemoryAttemptFail, hport]⟩
  case abort =>
    cases hport : s.port with
    | aborting f => exact absurd hport (h f)
    | idle | inFlight f => simp only [exec, execAbortAcknowledge, hport]

end Sys2Proof.Machine

/-! SUPPORT. The segment rule (R18), the space request with its three answers (R19, R20, R137, R138), and what a drain and a
quiesce make of a head that enters space-wait (R47 to R51, R84). -/
namespace Sys2Proof.Machine

set_option Elab.async false

/-! ## The segment rule and the space check -/

section
variable {s : State}

/-- A row needs a record without an index entry, or with one below the segment start (R18, R29). -/
theorem State.needsRecord_iff (s : State) (row : Nat) :
    s.needsRecord row = true ↔
      (indexGet s.index row = none ∨ ∃ k, indexGet s.index row = some k ∧ k < (s.stack.head?).getD 0) := by
  have hstart : s.segmentStart = (s.stack.head?).getD 0 := by
    unfold State.segmentStart
    cases s.stack <;> rfl
  unfold State.needsRecord
  rw [← hstart]
  cases indexGet s.index row <;> simp

/-- A record changes the answer for its own row alone (R22). -/
theorem State.needsRecord_addRecord_other {row other : Nat} (h : other ≠ row) (side : Half) (header : SlotHeader) :
    (s.addRecord other side header).needsRecord row = s.needsRecord row := by
  simp [State.needsRecord, State.addRecord, State.segmentStart, indexGet_indexSet_other _ _ _ (Ne.symm h)]

/-- The space check counts slots and sequence numbers (R19). -/
theorem State.spaceGranted_iff (s : State) {k : Nat} (hk : 1 ≤ k) :
    s.spaceGranted k = true ↔
      s.slots.length + k ≤ s.nSlots.toNat ∧ s.exhausted = false ∧ s.nextSequence.toNat ≤ 4294967295 - (k - 1)
        ∧ k ≤ 4294967296 := by
  simp only [State.spaceGranted, State.tail, Bool.and_eq_true, decide_eq_true_eq, Bool.not_eq_true']
  constructor
  · rintro ⟨⟨hroom, hleft⟩, hnumbers⟩
    have hroom := of_decide_eq_true hroom
    exact ⟨hroom, hleft, by omega, by omega⟩
  · rintro ⟨hroom, hleft, hnumbers, hcount⟩
    exact ⟨⟨decide_eq_true hroom, hleft⟩, by omega⟩

/-! ## The space request -/

section
variable {j : Job} {i : Nat} (hi : nextRow JobRow.needsRecord j.rows 0 = some i)
include hi

theorem State.requestSpace_granted (h : s.spaceGranted (j.rows.filter JobRow.needsRecord).length = true) :
    s.requestSpace j = s.startAppend j i := by
  rw [State.requestSpace, hi]
  exact if_pos h

theorem State.requestSpace_refused {c : ConfigRecord} (hactive : s.active = some c)
    (h : s.spaceGranted (j.rows.filter JobRow.needsRecord).length = false) (hpolicy : c.policy = .refuse) :
    s.requestSpace j = s.refuseWriteJob j .journalFull (j.rowNumber i) none false := by
  rw [State.requestSpace, hi]
  dsimp only
  rw [if_neg (by simp [h]), hactive, Option.map_some, Option.getD_some, hpolicy]

theorem State.requestSpace_parked {c : ConfigRecord} (hactive : s.active = some c)
    (h : s.spaceGranted (j.rows.filter JobRow.needsRecord).length = false) (hpolicy : c.policy = .hold) :
    s.requestSpace j = s.park j := by
  rw [State.requestSpace, hi]
  dsimp only
  rw [if_neg (by simp [h]), hactive, Option.map_some, Option.getD_some, hpolicy]

end

/-- A parked job leaves the Row Engine, its entry marked, before the drain and the quiesce meet it (R20, R138). -/
theorem State.park_eq (j : Job) {h : Entry} {rest : List Entry} (hqueue : s.queue = h :: rest) :
    s.park j =
      ({ s with
        queue := { h with state := .spaceWait } :: rest
        job := none
        parked := some
          { j with phase := .parked, rows := j.rows.map fun (r : JobRow) => { r with result := none } } } :
            State).decideIfDue.spaceWaitEntered := by
  have hmark : s.markHead (fun e => { e with state := .spaceWait }) =
      { s with queue := { h with state := .spaceWait } :: rest } := by
    rw [State.markHead, hqueue]
  rw [State.park, hmark]

/-! ## The head in space-wait -/

/-- Outside QUIESCING, with no operation whose drain meets the head, nothing happens. -/
theorem State.spaceWaitEntered_quiet (hdrain : s.drainAction = s) (hop : s.operating ≠ .quiescing) :
    s.spaceWaitEntered = s := by
  rw [State.spaceWaitEntered, if_neg (by simp [hop]), hdrain, State.dropIfWaiting_eq_self _ (.inl hop)]

/-- A drain that does not meet the head leaves it to QUIESCING (R84). -/
theorem State.spaceWaitEntered_unmet {h : Entry} {rest : List Entry} (hqueue : s.queue = h :: rest)
    (hwait : h.state = .spaceWait) (hunmet : s.longOp = none ∨ s.ahead h = false) :
    (s.operating ≠ .quiescing → s.spaceWaitEntered = s)
      ∧ (s.operating = .quiescing → s.spaceWaitEntered = s.headDropped h rest) := by
  have hahead : s.longOp = none ∨ s.headWaitsAhead = false :=
    hunmet.imp_right fun hb => (State.headWaitsAhead_of_parked hqueue hwait).trans hb
  have hdrain := State.drainAction_eq_self s hahead
  refine ⟨State.spaceWaitEntered_quiet hdrain, fun hop => ?_⟩
  rw [State.spaceWaitEntered, if_neg, hdrain, State.dropIfWaiting_waiting s h rest hqueue hwait hop]
  obtain hnone | hb := hahead
  · simp [hnone]
  · simp [hb]

/-- Outside QUIESCING the drain alone acts (R47 to R49). -/
theorem State.spaceWaitEntered_drain (hop : s.operating ≠ .quiescing) (hop' : s.drainAction.operating ≠ .quiescing) :
    s.spaceWaitEntered = s.drainAction := by
  rw [State.spaceWaitEntered, if_neg (by simp [hop]), State.dropIfWaiting_eq_self _ (.inl hop')]

/-- In QUIESCING the drop comes first, or the drain does (R51). -/
theorem State.spaceWaitEntered_either {u : State} (hu : u = { s with freeCount := s.freeCount + 1 })
    {h : Entry} {rest : List Entry} (hqueue : s.queue = h :: rest) (hwait : h.state = .spaceWait)
    (hop : s.operating = .quiescing) (hsome : s.longOp ≠ none) (hahead : s.ahead h = true) :
    s.spaceWaitEntered = u.headDropped h rest ∨ s.spaceWaitEntered = u.drainAction.dropIfWaiting := by
  have hmeets : (decide (s.operating = .quiescing) && s.longOp.isSome && s.headWaitsAhead) = true := by
    rw [State.headWaitsAhead_of_parked hqueue hwait, hahead, hop, Option.isSome_iff_ne_none.mpr hsome]
    rfl
  rw [State.spaceWaitEntered, if_pos hmeets]
  dsimp only
  subst hu
  split
  · exact .inl (State.dropIfWaiting_waiting { s with freeCount := s.freeCount + 1 } h rest hqueue hwait hop)
  · exact .inr rfl

/-! ## The drain of each operation -/

section
variable {o : LongOp} (ho : s.longOp = some o) (hphase : o.phase = .waiting) (hmeets : s.headWaitsAhead = true)
include ho hphase hmeets

theorem State.drainAction_meets :
    s.drainAction =
      match o.kind with
      | .commit => s.carry
      | .rollback => s.discardWaitingHead
      | .undo => if s.stack.isEmpty then s.refuseOperation .noSavepoint else s.discardWaitingHead
      | .save | .release | .apply => s.refuseOperation .queueHeld
      | .format => if s.journal = .draining then s.refuseOperation .queueHeld else s
      | .resume => s := by
  rw [State.drainAction, ho]
  exact if_pos (by rw [hphase, hmeets]; rfl)

theorem State.drainAction_commit (hkind : o.kind = .commit) : s.drainAction = s.carry := by
  rw [State.drainAction_meets ho hphase hmeets, hkind]

theorem State.drainAction_discards (hkind : o.kind = .rollback ∨ (o.kind = .undo ∧ s.stack ≠ [])) :
    s.drainAction = s.discardWaitingHead := by
  rw [State.drainAction_meets ho hphase hmeets]
  obtain hkind | ⟨hkind, hstack⟩ := hkind
  · rw [hkind]
  · rw [hkind]
    exact if_neg fun hempty => hstack (List.isEmpty_iff.mp hempty)

theorem State.drainAction_refuses (hjournal : s.journal = .draining) {reason : Reason}
    (hkind : (reason = .queueHeld ∧ (o.kind = .save ∨ o.kind = .release ∨ o.kind = .apply ∨ o.kind = .format))
      ∨ (reason = .noSavepoint ∧ o.kind = .undo ∧ s.stack = [])) : s.drainAction = s.refuseOperation reason := by
  rw [State.drainAction_meets ho hphase hmeets]
  obtain ⟨rfl, hkind | hkind | hkind | hkind⟩ | ⟨rfl, hkind, hstack⟩ := hkind
  · rw [hkind]
  · rw [hkind]
  · rw [hkind]
  · rw [hkind]
    exact if_pos hjournal
  · rw [hkind]
    exact if_pos (List.isEmpty_iff.mpr hstack)

end

/-- What the carry makes of its operation and its queue (R48, R127). -/
theorem State.carry_eq {o : LongOp} (ho : s.longOp = some o) {h : Entry} {rest : List Entry} (hqueue : s.queue = h :: rest) :
    s.carry =
      { s with
        mark := some (h.number - 1#32), queue := { h with state := .notStarted } :: rest, parked := none
        headHeld := false, longOp := some { o with carried := ((h :: rest).filter s.ahead).length } } := by
  unfold State.carry
  simp only [hqueue, State.count, ho]
  rfl

/-- What an end leaves of a head in space-wait is that head, or a head that its COMMIT has carried (R48, R72). -/
theorem State.queue_of_headParked_settleLatch {h : Entry} {rest : List Entry} (hqueue : s.queue = h :: rest)
    (hparked : s.settleLatch.headParked) : s.settleLatch.queue = h :: rest := by
  obtain heq | ⟨h', rest', _, heq⟩ := s.settleLatch_queue
  · exact heq.trans hqueue
  · obtain ⟨e, he, hwait⟩ := hparked
    rw [heq, List.head?_cons] at he
    obtain rfl := Option.some.inj he
    cases hwait

end

/-- Settles O21: the segment rule, the space check, the space request by its answer, and the head that enters space-wait by
the operation whose drain meets it. -/
theorem segmentAndSpaceRules : Obligations.SegmentAndSpaceRules := by
  refine ⟨fun s row => ⟨s.needsRecord_iff row, fun other side header hother => State.needsRecord_addRecord_other hother side header,
      fun hstack side header => State.needsRecord_addRecord hstack row side header (.inl rfl)⟩,
    fun s k hk => s.spaceGranted_iff hk,
    fun s j i c hactive hi => ⟨State.requestSpace_granted hi, State.requestSpace_refused hi hactive,
      fun hfull hpolicy h rest hqueue t ht => ?parked⟩,
    fun s h rest hqueue hwait hunmet => State.spaceWaitEntered_unmet hqueue hwait hunmet,
    fun s u t o h rest hqueue hwait hrest ho hphase horigin hjournal hahead hconfigured hu hcases => ?met⟩
  case parked =>
    have hpark : s.requestSpace j = t.decideIfDue.spaceWaitEntered := by
      rw [State.requestSpace_parked hi hactive hfull hpolicy, State.park_eq j hqueue, ht]
    refine ⟨hpark, fun hdeferred hnone hop => ?_⟩
    have hnone' : t.longOp = none := by rw [ht]; exact hnone
    have hdecided : t.decideIfDue = t := State.decideIfDue_waits (.inl (by rw [ht]; exact hdeferred))
    have hop' : t.operating ≠ .quiescing := by rw [ht]; exact hop
    rw [hpark, hdecided, State.spaceWaitEntered_quiet (State.drainAction_eq_self t (.inl hnone')) hop']
  case met =>
    have hu' : ∃ n, u = { s with freeCount := n } := by
      rw [hu]
      split
      · exact ⟨_, rfl⟩
      · exact ⟨s.freeCount, rfl⟩
    have hmeets : u.headWaitsAhead = true := by
      obtain ⟨n, rfl⟩ := hu'
      exact (State.headWaitsAhead_of_parked (s := { s with freeCount := n }) hqueue hwait).trans hahead
    have huop : u.longOp = some o := by obtain ⟨n, rfl⟩ := hu'; exact ho
    have huqueue : u.queue = h :: rest := by obtain ⟨n, rfl⟩ := hu'; exact hqueue
    have huj : u.journal = .draining := by obtain ⟨n, rfl⟩ := hu'; exact hjournal
    have huc : u.operating ≠ .unconfigured := by obtain ⟨n, rfl⟩ := hu'; exact hconfigured
    have hustack : u.stack = s.stack := by obtain ⟨n, rfl⟩ := hu'; rfl
    -- The drain alone, and what it leaves of the operating state and of a head in space-wait.
    have hdrained : u.drainAction = t ∧ t.operating = u.operating ∧ (t.headParked → t.queue = h :: rest) := by
      have hrefused : ∀ reason, u.drainAction = u.refuseOperation reason →
          t = (u.endedWith .opened (o.record .refused (some reason) none s.epochOrZero)).settleLatch →
          u.drainAction = t ∧ t.operating = u.operating ∧ (t.headParked → t.queue = h :: rest) := by
        intro reason hdrain ht
        have hepoch : u.epochOrZero = s.epochOrZero := by obtain ⟨n, rfl⟩ := hu'; rfl
        refine ⟨?_, ?_, fun hparked => ?_⟩
        · rw [hdrain, State.refuseOperation_draining u o reason huop horigin huj huc, ht, hepoch]
        · rw [ht]
          simp [State.endedWith]
        · rw [ht] at hparked ⊢
          exact State.queue_of_headParked_settleLatch (s := u.endedWith .opened _) huqueue hparked
      obtain ⟨hkind, ht⟩ | ⟨hkind, ht⟩ | ⟨hkind, ht⟩ | ⟨hkind, hstack, ht⟩ := hcases
      · refine ⟨?_, by rw [ht], fun ⟨e, he, hc⟩ => ?_⟩
        · rw [State.drainAction_commit huop hphase hmeets hkind, State.carry_eq huop huqueue, ht]
          obtain ⟨n, rfl⟩ := hu'
          rfl
        · rw [ht] at he
          obtain rfl := Option.some.inj he
          cases hc
      · have hdiscard : u.drainAction = t := by
          rw [State.drainAction_discards huop hphase hmeets (by rwa [hustack]),
            State.discardWaitingHead_eq u o h rest huqueue hwait hrest huop, ht]
          obtain ⟨n, rfl⟩ := hu'
          rfl
        refine ⟨hdiscard, by rw [ht]; simp, fun hparked => absurd hparked ?_⟩
        rw [ht]
        exact State.not_headParked_acceptHeldWrite hrest
      · exact hrefused .queueHeld
          (State.drainAction_refuses huop hphase hmeets huj (.inl ⟨rfl, hkind⟩)) ht
      · exact hrefused .noSavepoint
          (State.drainAction_refuses huop hphase hmeets huj (.inr ⟨rfl, hkind, by rwa [hustack]⟩)) ht
    obtain ⟨hdrain, htop, htqueue⟩ := hdrained
    refine ⟨fun hop => ?_, fun hop hparked => ?_, fun hop hparked => ?_⟩
    · obtain rfl : u = s := by rw [hu, if_neg hop]
      rw [← hdrain] at htop ⊢
      exact State.spaceWaitEntered_drain hop (by rw [htop]; exact hop)
    all_goals
      rw [if_pos hop] at hu
      have heither := State.spaceWaitEntered_either hu hqueue hwait hop (by rw [ho]; exact Option.some_ne_none o) hahead
      rw [hdrain] at heither
    · rwa [State.dropIfWaiting_eq_self t (.inr hparked)] at heither
    · have hquiescing : t.operating = .quiescing := by rw [htop, hu]; exact hop
      rwa [State.dropIfWaiting_waiting t h rest (htqueue hparked) hwait hquiescing] at heither

end Sys2Proof.Machine

/-! SUPPORT. The execution of a journal command at its drain's end: the savepoints (R30, R31), the begin of the advance
(R25, R27, R58), and the begin of the restores (R52, R54, R56, R64, R66). -/
namespace Sys2Proof.Machine

set_option Elab.async false

/-! ## Execution begins -/

/-- The state in which a long operation executes (R50). -/
def State.executing (s : State) (o : LongOp) : State := { s with longOp := some { o with phase := .executing } }

/-- The execution of a kind of operation (R50). -/
def State.execute (s : State) : OpKind → State
  | .save => s.executeSave
  | .release => s.executeRelease
  | .undo => s.executeUndo
  | .commit => s.executeCommit
  | .rollback => s.executeRollback
  | .resume => s.executeResume
  | .format => s.executeFormat
  | .apply => s.executeApply

theorem exec_drainEnd_executes {s : State} {o : LongOp} {kind : OpKind} (h : s.drainEnded o) (hkind : o.kind = kind) :
    exec .drainEnd s = .next ((s.executing o).execute kind) := by
  subst hkind
  have hcan : s.drainCanEnd = true := State.drainCanEnd_iff.mpr ⟨o, h⟩
  obtain ⟨_, ho, _⟩ := h
  show execDrainEnd s = _
  unfold execDrainEnd
  rw [if_pos hcan, ho]
  obtain ⟨kind, _⟩ := o
  cases kind <;> rfl

section
variable {s : State} {o : LongOp}

/-- An operation that ends as it executes leaves what its drain left, but for its end (R70). -/
theorem State.executing_endOperation (horigin : o.origin ≠ .start) (hconfigured : s.operating ≠ .unconfigured)
    (journal : JournalState) (result : OpResult) (reason : Option Reason) :
    (s.executing o).endOperation journal result reason none =
      (s.endedWith journal (o.record result reason none s.epochOrZero)).settleLatch :=
  State.endOperation_link (s.executing o) { o with phase := .executing } _ _ _ _ rfl horigin (.inl hconfigured)

theorem State.executing_refuseOperation (horigin : o.origin ≠ .start) (hconfigured : s.operating ≠ .unconfigured)
    (hjournal : s.journal = .draining) (reason : Reason) :
    (s.executing o).refuseOperation reason =
      (s.endedWith .opened (o.record .refused (some reason) none s.epochOrZero)).settleLatch :=
  State.refuseOperation_draining (s.executing o) { o with phase := .executing } reason rfl horigin hjournal hconfigured

end

/-! ## The savepoints -/

section
variable {s : State}

theorem State.executeSave_pushes (h : s.stack.length < 7) :
    s.executeSave = { s with stack := s.slots.length :: s.stack }.endOperation .opened .done none none := if_pos h

theorem State.executeSave_full (h : s.stack.length = 7) : s.executeSave = s.refuseOperation .stackFull :=
  if_neg (by omega)

theorem State.executeRelease_pops {top : Nat} {rest : List Nat} (h : s.stack = top :: rest) :
    s.executeRelease = { s with stack := rest }.endOperation .opened .done none none := by
  unfold State.executeRelease
  rw [h]

theorem State.executeRelease_empty (h : s.stack = []) : s.executeRelease = s.refuseOperation .noSavepoint := by
  unfold State.executeRelease
  rw [h]

end

/-- Settles O39, by what each command does to the stack before its end. -/
theorem savepointsArePushedAndPopped : Obligations.SavepointsArePushedAndPopped := by
  unfold Obligations.SavepointsArePushedAndPopped
  refine ⟨fun s origin skip hdrain horigin hconfigured hjournal => ?_,
    fun s origin skip hdrain horigin hconfigured hjournal => ?_⟩
  · refine ⟨fun hroom => ?_, fun hfull => ?_⟩
    · rw [exec_drainEnd_executes hdrain rfl]
      exact congrArg Host.Outcome.next ((State.executeSave_pushes (s := s.executing (LongOp.created .save origin skip)) hroom).trans
        (State.executing_endOperation (s := { s with stack := s.slots.length :: s.stack })
          (o := LongOp.created .save origin skip) horigin hconfigured _ _ _))
    · rw [exec_drainEnd_executes hdrain rfl]
      exact congrArg Host.Outcome.next ((State.executeSave_full (s := s.executing (LongOp.created .save origin skip)) hfull).trans
        (State.executing_refuseOperation (o := LongOp.created .save origin skip) horigin hconfigured hjournal _))
  · refine ⟨fun top rest hstack => ?_, fun hstack => ?_⟩
    · rw [exec_drainEnd_executes hdrain rfl]
      exact congrArg Host.Outcome.next ((State.executeRelease_pops (s := s.executing (LongOp.created .release origin skip)) hstack).trans
        (State.executing_endOperation (s := { s with stack := rest })
          (o := LongOp.created .release origin skip) horigin hconfigured _ _ _))
    · rw [exec_drainEnd_executes hdrain rfl]
      exact congrArg Host.Outcome.next ((State.executeRelease_empty (s := s.executing (LongOp.created .release origin skip)) hstack).trans
        (State.executing_refuseOperation (o := LongOp.created .release origin skip) horigin hconfigured hjournal _))

/-! ## The advance -/

section
variable {s : State}

/-- An anchor write is asked for with its copy's record INVALID (R7, R9, R25). -/
theorem State.writeAnchor_eq (goal : AnchorGoal) (copy : Copy) (epoch : Word) {row : Nat}
    (hrow : row = s.base.toNat + (if copy = Copy.a then 0 else 1)) :
    s.writeAnchor goal copy epoch =
      ({ s with
        anchorA := if copy = Copy.a then .invalid else s.anchorA
        anchorB := if copy = Copy.b then .invalid else s.anchorB } : State).asksMaint (.anchorWrite goal copy epoch)
        (.write row (freshRow row
          (Anchor.encode { marker := 0x6B31D4E8#32, epoch := epoch, base := s.base, nSlots := s.nSlots }))) := by
  subst hrow
  cases copy <;> rfl

theorem State.startAdvance_anchor (hepoch : s.epochOrZero ≠ 0xFFFFFFFF#32) {copy : Copy} {row : Nat}
    (hcopy : copy = chooseAnchor s.anchorA s.anchorB) (hrow : row = s.base.toNat + (if copy = Copy.a then 0 else 1)) :
    s.startAdvance =
      ({ s with
        anchorA := if copy = Copy.a then .invalid else s.anchorA
        anchorB := if copy = Copy.b then .invalid else s.anchorB } : State).asksMaint
        (.anchorWrite .advance copy (s.epochOrZero + 1#32))
        (.write row (freshRow row
          (Anchor.encode { marker := 0x6B31D4E8#32, epoch := s.epochOrZero + 1#32, base := s.base, nSlots := s.nSlots }))) := by
  rw [← State.writeAnchor_eq .advance copy _ hrow, hcopy]
  exact if_neg hepoch

theorem State.startAdvance_wipe (hepoch : s.epochOrZero = 0xFFFFFFFF#32) :
    s.startAdvance =
      s.asksMaint (.wipeHeader 0 false) (.write (s.base.toNat + 2) (freshRow (s.base.toNat + 2) 0#128)) :=
  if_pos hepoch

section
variable {t : State}

/-- An advance from a state that has another's anchors, configuration and epoch (R25). -/
theorem State.startAdvance_anchor_of (hA : t.anchorA = s.anchorA) (hB : t.anchorB = s.anchorB)
    (hactive : t.active = s.active) (hsame : t.epoch = s.epoch) (hepoch : s.epochOrZero ≠ 0xFFFFFFFF#32) {copy : Copy}
    {row : Nat} (hcopy : copy = chooseAnchor s.anchorA s.anchorB)
    (hrow : row = s.base.toNat + (if copy = Copy.a then 0 else 1)) :
    t.startAdvance =
      ({ t with
        anchorA := if copy = Copy.a then .invalid else s.anchorA
        anchorB := if copy = Copy.b then .invalid else s.anchorB } : State).asksMaint
        (.anchorWrite .advance copy (s.epochOrZero + 1#32))
        (.write row (freshRow row
          (Anchor.encode { marker := 0x6B31D4E8#32, epoch := s.epochOrZero + 1#32, base := s.base, nSlots := s.nSlots }))) := by
  have hbase : s.base = t.base := by rw [State.base, ← hactive]; rfl
  have hnSlots : s.nSlots = t.nSlots := by rw [State.nSlots, ← hactive]; rfl
  have hzero : s.epochOrZero = t.epochOrZero := by rw [State.epochOrZero, ← hsame]; rfl
  rw [hbase] at hrow
  rw [← hA, ← hB] at hcopy ⊢
  rw [hzero] at hepoch ⊢
  rw [hbase, hnSlots]
  exact State.startAdvance_anchor hepoch hcopy hrow

theorem State.startAdvance_wipe_of (hactive : t.active = s.active) (hsame : t.epoch = s.epoch)
    (hepoch : s.epochOrZero = 0xFFFFFFFF#32) :
    t.startAdvance =
      t.asksMaint (.wipeHeader 0 false) (.write (s.base.toNat + 2) (freshRow (s.base.toNat + 2) 0#128)) := by
  have hbase : s.base = t.base := by rw [State.base, ← hactive]; rfl
  rw [hbase]
  exact State.startAdvance_wipe (by rw [State.epochOrZero, hsame]; exact hepoch)

end

theorem State.executeCommit_empty (hslots : s.slots = []) (hexhausted : s.exhausted = false) :
    s.executeCommit = { s with stack := [] }.endOperation .opened .empty none none :=
  if_pos (by simp [State.tail, hslots, hexhausted])

theorem State.executeRollback_empty (hslots : s.slots = []) (hexhausted : s.exhausted = false) :
    s.executeRollback = { s with stack := [] }.endOperation .opened .empty none none :=
  if_pos (by simp [State.tail, hslots, hexhausted])

/-- A journal has something to end when it has a record, or no sequence number left (R56, R58). -/
theorem State.not_nothingToEnd (h : s.slots ≠ [] ∨ s.exhausted = true) :
    ¬ (decide (s.tail = 0) && !s.exhausted) = true := by
  obtain h | h := h <;> simp [State.tail, h]

theorem State.executeCommit_advances (h : s.slots ≠ [] ∨ s.exhausted = true) :
    s.executeCommit = (s.setJournal .committing).startAdvance := if_neg (State.not_nothingToEnd h)

theorem State.executeRollback_restores (h : s.slots ≠ [] ∨ s.exhausted = true) :
    s.executeRollback = s.enterRollingBack := if_neg (State.not_nothingToEnd h)

end

/-- Settles O40. -/
theorem commitBeginsTheAdvance : Obligations.CommitBeginsTheAdvance := by
  unfold Obligations.CommitBeginsTheAdvance
  refine ⟨⟨fun b => ⟨rfl, rfl⟩, fun ea b hb => ?_, fun ea eb => rfl⟩, fun s o hdrain hkind horigin hconfigured hslots
    hexhausted => ?_, fun s o hdrain hkind hwork => ⟨fun hepoch copy row hcopy hrow => ?_, fun hepoch => ?_⟩⟩
  · cases b with
    | valid eb => exact absurd rfl (hb eb)
    | mismatched => rfl
    | invalid => rfl
  · have hend := State.executing_endOperation (s := { s with stack := [] }) (o := o) horigin hconfigured .opened .empty none
    obtain hkind | hkind := hkind
    · rw [exec_drainEnd_executes hdrain hkind]
      exact congrArg Host.Outcome.next ((State.executeCommit_empty (s := s.executing o) hslots hexhausted).trans hend)
    · rw [exec_drainEnd_executes hdrain hkind]
      exact congrArg Host.Outcome.next ((State.executeRollback_empty (s := s.executing o) hslots hexhausted).trans hend)
  · rw [exec_drainEnd_executes hdrain hkind]
    exact congrArg Host.Outcome.next ((State.executeCommit_advances (s := s.executing o) hwork).trans
      (State.startAdvance_anchor (s := (s.executing o).setJournal .committing) hepoch hcopy hrow))
  · rw [exec_drainEnd_executes hdrain hkind]
    exact congrArg Host.Outcome.next ((State.executeCommit_advances (s := s.executing o) hwork).trans
      (State.startAdvance_wipe (s := (s.executing o).setJournal .committing) hepoch))

/-! ## The restores -/

section
variable {s : State}

/-- A restore begins with the image of the newest slot (R52). -/
theorem State.restoreNext_image (h : s.restoreFloor < s.slots.length) :
    s.restoreNext =
      s.asksMaint (.restoreImage (s.slots.length - 1)) (.read (s.base.toNat + 3 + 2 * (s.slots.length - 1))) := if_pos h

theorem State.restoreNext_undone {o : LongOp} (ho : s.longOp = some o) (hkind : o.kind = .undo)
    (h : s.slots.length ≤ s.segmentStart) : s.restoreNext = s.endOperation .opened .done none none := by
  have hundo : s.longOp.map LongOp.kind = some .undo := by rw [ho, ← hkind]; rfl
  have hfloor : s.restoreFloor = s.segmentStart := if_pos hundo
  unfold State.restoreNext
  rw [if_neg (by rw [hfloor]; exact Nat.not_lt.mpr h)]
  exact if_pos hundo

theorem State.kind_ne_undo {o : LongOp} (ho : s.longOp = some o) (hkind : o.kind ≠ .undo) :
    s.longOp.map LongOp.kind ≠ some .undo := by
  rw [ho]
  exact fun h => hkind (Option.some.inj h)

theorem State.restoreFloor_rollback {o : LongOp} (ho : s.longOp = some o) (hkind : o.kind ≠ .undo) :
    s.restoreFloor = 0 := if_neg (State.kind_ne_undo ho hkind)

theorem State.restoreFloor_undo {o : LongOp} (ho : s.longOp = some o) (hkind : o.kind = .undo) :
    s.restoreFloor = s.segmentStart := if_pos (by rw [ho, ← hkind]; rfl)

/-- With no record left, a rollback goes on to the advance (R56, R64). -/
theorem State.restoreNext_advance {o : LongOp} (ho : s.longOp = some o) (hkind : o.kind ≠ .undo) (hslots : s.slots = []) :
    s.restoreNext = s.startAdvance := by
  unfold State.restoreNext
  rw [State.restoreFloor_rollback ho hkind, if_neg (by simp [State.tail, hslots])]
  exact if_neg (State.kind_ne_undo ho hkind)

theorem State.executeUndo_refused (h : s.stack = []) : s.executeUndo = s.refuseOperation .noSavepoint := by
  unfold State.executeUndo
  rw [h]

theorem State.executeUndo_restores {top : Nat} {rest : List Nat} (h : s.stack = top :: rest) :
    s.executeUndo = (s.setJournal .undoing).restoreNext := by
  unfold State.executeUndo
  rw [h]

theorem State.executeResume_rollBack (h : s.journal = .broken .rollBack) : s.executeResume = s.enterRollingBack := by
  unfold State.executeResume
  rw [h]

theorem State.executeResume_completeCommit (h : s.journal = .broken .completeCommit) :
    s.executeResume = (s.setJournal .committing).startAdvance := by
  unfold State.executeResume
  rw [h]

end

/-- Settles O42. -/
theorem restoresBeginAtTheTail : Obligations.RestoresBeginAtTheTail := by
  unfold Obligations.RestoresBeginAtTheTail
  refine ⟨fun s o hdrain hkind horigin hconfigured hjournal => ⟨fun hstack => ?_, fun top rest hstack hrecords => ?_,
    fun top rest hstack hrecords => ?_⟩, fun s o hdrain hkind hslots => ?_, fun s t o copy row hdrain ht hcopy hrow => ?_⟩
  · rw [exec_drainEnd_executes hdrain hkind]
    exact congrArg Host.Outcome.next ((State.executeUndo_refused (s := s.executing o) hstack).trans
      (State.executing_refuseOperation horigin hconfigured hjournal _))
  · rw [exec_drainEnd_executes hdrain hkind]
    refine congrArg Host.Outcome.next ((State.executeUndo_restores (s := s.executing o) hstack).trans
      (State.restoreNext_image (s := (s.executing o).setJournal .undoing) ?_))
    rw [State.restoreFloor_undo (o := { o with phase := .executing }) rfl hkind]
    show s.stack.headD 0 < s.slots.length
    rwa [hstack]
  · rw [exec_drainEnd_executes hdrain hkind]
    refine congrArg Host.Outcome.next ((State.executeUndo_restores (s := s.executing o) hstack).trans
      ((State.restoreNext_undone (s := (s.executing o).setJournal .undoing) (o := { o with phase := .executing }) rfl hkind
        ?_).trans (State.executing_endOperation (s := s.setJournal .undoing) (o := o) horigin hconfigured _ _ _)))
    show s.slots.length ≤ s.stack.headD 0
    rwa [hstack]
  · have hrestore : (s.executing o).enterRollingBack = _ :=
      State.restoreNext_image (s := { (s.executing o).setJournal .rollingBack with stack := [] }) (by
        rw [State.restoreFloor_rollback (o := { o with phase := .executing }) rfl (by
          obtain hkind | ⟨hkind, _⟩ := hkind <;> exact fun h => nomatch hkind.symm.trans h)]
        exact List.length_pos_iff.mpr hslots)
    obtain hkind | ⟨hkind, hjournal⟩ := hkind
    · rw [exec_drainEnd_executes hdrain hkind]
      exact congrArg Host.Outcome.next
        ((State.executeRollback_restores (s := s.executing o) (.inl hslots)).trans hrestore)
    · rw [exec_drainEnd_executes hdrain hkind]
      exact congrArg Host.Outcome.next
        ((State.executeResume_rollBack (s := s.executing o) hjournal).trans hrestore)
  · have hexec : exec .drainEnd s = .next t.startAdvance := by
      obtain ⟨hkind, hjournal, rfl⟩ | ⟨hcause, hslots, rfl⟩ := ht
      · rw [exec_drainEnd_executes hdrain hkind]
        exact congrArg Host.Outcome.next (State.executeResume_completeCommit (s := s.executing o) hjournal)
      · have hadvance : (s.executing o).enterRollingBack = _ :=
          State.restoreNext_advance (s := { (s.executing o).setJournal .rollingBack with stack := [] })
            (o := { o with phase := .executing }) rfl (by
              obtain ⟨hkind, _⟩ | ⟨hkind, _⟩ := hcause <;> exact fun h => nomatch hkind.symm.trans h) hslots
        obtain ⟨hkind, hexhausted⟩ | ⟨hkind, hjournal⟩ := hcause
        · rw [exec_drainEnd_executes hdrain hkind]
          exact congrArg Host.Outcome.next
            ((State.executeRollback_restores (s := s.executing o) (.inr hexhausted)).trans hadvance)
        · rw [exec_drainEnd_executes hdrain hkind]
          exact congrArg Host.Outcome.next
            ((State.executeResume_rollBack (s := s.executing o) hjournal).trans hadvance)
    have hsame : t.anchorA = s.anchorA ∧ t.anchorB = s.anchorB ∧ t.active = s.active ∧ t.epoch = s.epoch := by
      obtain ⟨_, _, rfl⟩ | ⟨_, _, rfl⟩ := ht <;> exact ⟨rfl, rfl, rfl, rfl⟩
    obtain ⟨hA, hB, hactive, hepoch⟩ := hsame
    rw [hexec]
    exact ⟨fun h => congrArg Host.Outcome.next (State.startAdvance_anchor_of hA hB hactive hepoch h hcopy hrow),
      fun h => congrArg Host.Outcome.next (State.startAdvance_wipe_of hactive hepoch h)⟩

end Sys2Proof.Machine

/-! SUPPORT. What each result on MAINT makes its task do (R148, R152), how an advance, a restore, a format and a wipe go
on and end with it, and the obligations about them. -/
namespace Sys2Proof.Machine

set_option Elab.async false

section
variable {s u : State}

/-! ## The task of a MAINT result -/

/-- A state with other memory contents, and with another port, waiting requests and last-served record. -/
def State.withPort (s : State) (v : Memory × PortState × Option RowOp × Option RowOp × Requester) : State :=
  { s with mem := v.1, port := v.2.1, waitFront := v.2.2.1, waitMaint := v.2.2.2.1, lastServed := v.2.2.2.2 }

theorem State.portFreed_withPort (s : State) : ∃ v, s.portFreed = s.withPort v := by
  obtain ⟨p, wf, wm, ls, h⟩ := s.portFreed_eq
  exact ⟨(s.mem, p, wf, wm, ls), h⟩

theorem State.wrote_withPort (s : State) (row : Nat) (content : Row) : ∃ v, s.wrote row content = s.withPort v := by
  obtain ⟨p, wf, wm, ls, h⟩ := s.wrote_eq row content
  exact ⟨(_, p, wf, wm, ls), h⟩

theorem State.wroteInPart_withPort (s : State) (row : Nat) (content : Row) (left : Residue) :
    ∃ v, s.wroteInPart row content left = s.withPort v := by
  obtain ⟨p, wf, wm, ls, h⟩ := s.wroteInPart_eq row content left
  exact ⟨(_, p, wf, wm, ls), h⟩

theorem State.portFreed_task {task : MaintTask} (h : s.maint = some task) : s.portFreed.maint = some task := by
  obtain ⟨p, wf, wm, ls, hu⟩ := s.portFreed_eq
  rw [hu]
  exact h

/-- A read of MAINT that completes: what its task makes of the row is the next state. -/
theorem exec_maintReads {task : MaintTask} {row : Nat} {x : Row} {t : State} (h : s.maintReads task row x)
    (hnext : s.portFreed.maint = some task → s.portFreed.deliverMaint (.done x) = t) :
    exec (.memoryAttemptDone none) s = .next t := by
  rw [exec_of_maintReads h]
  exact congrArg Host.Outcome.next (hnext (State.portFreed_task h.1))

/-- A write of MAINT that completes: what its task makes of it is the next state. -/
theorem exec_maintWrites {task : MaintTask} {row : Nat} {content : Row} {t : State} (h : s.maintWrites task row content)
    (hnext : (s.wrote row content).maint = some task → (s.wrote row content).deliverMaint (.done content) = t) :
    exec (.memoryAttemptDone none) s = .next t := by
  rw [exec_of_maintWrites h]
  exact congrArg Host.Outcome.next (hnext (State.portFreed_task (s := { s with mem := _ }) h.1))

/-- A read of MAINT that fails for good. -/
theorem exec_maintFails_read {task : MaintTask} {row : Nat} {c : Instr} {left : Residue} {kind : FaultKind} {t : State}
    (h : s.maintFails task (.read row) c left kind)
    (hnext : ∀ m : MemFault, m.kind = kind → s.portFreed.maint = some task → s.portFreed.deliverMaint (.failed m) = t) :
    exec c s = .next t := by
  obtain ⟨m, hm, hexec⟩ := exec_of_maintFails h
  rw [hexec]
  exact congrArg Host.Outcome.next (hnext m hm (State.portFreed_task h.1))

/-- A write of MAINT that fails for good. -/
theorem exec_maintFails_write {task : MaintTask} {row : Nat} {content : Row} {c : Instr} {left : Residue}
    {kind : FaultKind} {t : State} (h : s.maintFails task (.write row content) c left kind)
    (hnext : ∀ m : MemFault, m.kind = kind → (s.wroteInPart row content left).maint = some task →
      (s.wroteInPart row content left).deliverMaint (.failed m) = t) :
    exec c s = .next t := by
  obtain ⟨m, hm, hexec⟩ := exec_of_maintFails h
  rw [hexec]
  exact congrArg Host.Outcome.next (hnext m hm (State.portFreed_task (s := { s with mem := _ }) h.1))

/-! ## The result of each task of the Journal Unit -/

theorem State.deliverMaint_restoreImage {k : Nat} (h : u.maint = some (.restoreImage k)) (x : Row) :
    u.deliverMaint (.done x) = u.imageRead k x := by
  unfold State.deliverMaint
  rw [h]

theorem State.deliverMaint_restoreImage_failed {k : Nat} (h : u.maint = some (.restoreImage k)) (m : MemFault) :
    u.deliverMaint (.failed m) = u.restoreStopped k m.kind := by
  unfold State.deliverMaint
  rw [h]

theorem State.deliverMaint_restoreTarget {k : Nat} (h : u.maint = some (.restoreTarget k)) (x : Row) :
    u.deliverMaint (.done x) = u.targetWritten := by
  unfold State.deliverMaint
  rw [h]

theorem State.deliverMaint_restoreTarget_failed {k : Nat} (h : u.maint = some (.restoreTarget k)) (m : MemFault) :
    u.deliverMaint (.failed m) = u.restoreStopped k m.kind := by
  unfold State.deliverMaint
  rw [h]

theorem State.deliverMaint_wipeHeader {k : Nat} {forFormat : Bool} (h : u.maint = some (.wipeHeader k forFormat))
    (x : Row) : u.deliverMaint (.done x) = u.wipeWritten k forFormat := by
  unfold State.deliverMaint
  rw [h]

theorem State.deliverMaint_wipeHeader_failed {k : Nat} {forFormat : Bool}
    (h : u.maint = some (.wipeHeader k forFormat)) (m : MemFault) :
    u.deliverMaint (.failed m) = u.wipeFailed k forFormat m.kind := by
  unfold State.deliverMaint
  rw [h]

theorem State.deliverMaint_anchorWrite {goal : AnchorGoal} {copy : Copy} {epoch : Word}
    (h : u.maint = some (.anchorWrite goal copy epoch)) (x : Row) :
    u.deliverMaint (.done x) = u.asksMaint (.anchorConfirm goal copy epoch) (.read (u.anchorRow copy)) := by
  unfold State.deliverMaint
  rw [h]
  rfl

theorem State.deliverMaint_anchorWrite_failed {goal : AnchorGoal} {copy : Copy} {epoch : Word}
    (h : u.maint = some (.anchorWrite goal copy epoch)) (m : MemFault) :
    u.deliverMaint (.failed m) = u.anchorFailed goal copy false m.kind := by
  unfold State.deliverMaint
  rw [h]

theorem State.deliverMaint_anchorConfirm {goal : AnchorGoal} {copy : Copy} {epoch : Word}
    (h : u.maint = some (.anchorConfirm goal copy epoch)) (x : Row) :
    u.deliverMaint (.done x) = u.anchorReadBack goal copy epoch x := by
  unfold State.deliverMaint
  rw [h]

theorem State.deliverMaint_anchorConfirm_failed {goal : AnchorGoal} {copy : Copy} {epoch : Word}
    (h : u.maint = some (.anchorConfirm goal copy epoch)) (m : MemFault) :
    u.deliverMaint (.failed m) = u.anchorFailed goal copy false m.kind := by
  unfold State.deliverMaint
  rw [h]

theorem State.deliverMaint_formatAnchor {copy : Copy} {greatest : Word} (h : u.maint = some (.formatAnchor copy greatest))
    (x : Row) :
    u.deliverMaint (.done x) = u.formatAnchorRead copy
      (raiseEpoch greatest (anchorPresent (u.anchorRow copy) x) (Anchor.decode x.data).epoch) := by
  unfold State.deliverMaint
  rw [h]

theorem State.deliverMaint_formatAnchor_failed {copy : Copy} {greatest : Word}
    (h : u.maint = some (.formatAnchor copy greatest)) (m : MemFault) :
    u.deliverMaint (.failed m) =
      (u.file (u.journalFault m.kind (u.anchorRow copy) none)).formatAnchorRead copy greatest := by
  unfold State.deliverMaint
  rw [h]

theorem State.deliverMaint_formatHeader {k : Nat} {greatest : Word} (h : u.maint = some (.formatHeader k greatest))
    (x : Row) :
    u.deliverMaint (.done x) = u.formatHeaders (k + 1)
      (raiseEpoch greatest (headerPresent (u.headerRow k) x) (Header.decode x.data).epoch) := by
  unfold State.deliverMaint
  rw [h]

theorem State.deliverMaint_formatHeader_failed {k : Nat} {greatest : Word}
    (h : u.maint = some (.formatHeader k greatest)) (m : MemFault) :
    u.deliverMaint (.failed m) =
      (u.file (u.journalFault m.kind (u.headerRow k) (some k))).formatFailed m.kind := by
  unfold State.deliverMaint
  rw [h]

/-! ## The end of a task's operation, after its record -/

/-- A record filed before an operation fails does not change the epoch that the end reports (R70, R192). -/
theorem State.file_failOperation {o : LongOp} (ho : u.longOp = some o) (horigin : o.origin ≠ .start)
    (hconfigured : u.operating ≠ .unconfigured) (f : FaultRecord) (journal : JournalState) (kind : FaultKind) :
    (u.file f).failOperation journal kind =
      ((u.file f).endedWith journal (o.record .failed none (some kind) u.epochOrZero)).settleLatch := by
  rw [State.failOperation_link (u.file f) o journal kind (by simpa using ho) horigin (.inl (by simpa using hconfigured)),
    State.file_epochOrZero]

/-! ## The restore -/

/-- The newest slot leaves the table (R35, R52). -/
theorem State.dropRecord_eq {slots : List SlotEntry} {e : SlotEntry} (h : u.slots = slots ++ [e]) :
    u.dropRecord =
      { u with
        slots := slots, slotHeaders := u.slotHeaders.dropLast, index := indexRepair u.index e.target e.backLink } := by
  unfold State.dropRecord
  rw [h]
  simp

theorem State.restoreStopped_eq {k : Nat} {e : SlotEntry} (h : u.slots[k]? = some e) (kind : FaultKind) :
    u.restoreStopped k kind =
      (u.file (unitFault kind .journalUnit e.target (some k) u.epochOrZero)).failOperation (.broken .rollBack) kind := by
  unfold State.restoreStopped
  rw [h]
  rfl

theorem State.imageRead_good {k : Nat} {e : SlotEntry} {x : Row} (h : u.slots[k]? = some e)
    (hgood : rowGood (u.base.toNat + 3 + 2 * k) x = true) :
    u.imageRead k x = u.asksMaint (.restoreTarget k) (.write e.target { data := x.data, side := e.side }) := by
  refine (if_pos hgood).trans ?_
  rw [h]
  rfl

theorem State.imageRead_skipped {k : Nat} {e : SlotEntry} {x : Row} {o : LongOp} (h : u.slots[k]? = some e)
    (hbad : rowGood (u.base.toNat + 3 + 2 * k) x = false) (ho : u.longOp = some o) (hkind : o.kind = .resume)
    (hskip : o.skip = true) :
    u.imageRead k x =
      ((u.file (unitFault .imageCheck .journalUnit e.target (some k) u.epochOrZero)).dropRecord.count
        fun o => { o with skipped := o.skipped + 1 }).restoreNext := by
  refine (if_neg (ne_true_of_eq_false hbad)).trans ?_
  rw [ho]
  refine (if_pos (by simp [hkind, hskip])).trans ?_
  rw [h]
  rfl

theorem State.imageRead_stopped {k : Nat} {x : Row} {o : LongOp} (hbad : rowGood (u.base.toNat + 3 + 2 * k) x = false)
    (ho : u.longOp = some o) (h : ¬ (o.kind = .resume ∧ o.skip = true)) :
    u.imageRead k x = u.restoreStopped k .imageCheck := by
  refine (if_neg (ne_true_of_eq_false hbad)).trans ?_
  rw [ho]
  exact if_neg (by simpa using h)

end

end Sys2Proof.Machine

/-! SUPPORT. The restore on MAINT (R35, R52 to R57, R64, R65): its obligation. -/
namespace Sys2Proof.Machine

set_option Elab.async false

section
variable {u : State} {o : LongOp}

theorem State.count_eq (ho : u.longOp = some o) (f : LongOp → LongOp) : u.count f = { u with longOp := some (f o) } := by
  unfold State.count
  rw [ho]
  rfl

theorem State.restoreStopped_link {k : Nat} {e : SlotEntry} (h : u.slots[k]? = some e) (ho : u.longOp = some o)
    (horigin : o.origin ≠ .start) (hconfigured : u.operating ≠ .unconfigured) (kind : FaultKind) :
    u.restoreStopped k kind =
      ((u.file (unitFault kind .journalUnit e.target (some k) u.epochOrZero)).endedWith (.broken .rollBack)
        (o.record .failed none (some kind) u.epochOrZero)).settleLatch :=
  (State.restoreStopped_eq h kind).trans (State.file_failOperation ho horigin hconfigured _ _ _)

/-- What a restored or skipped record leaves: the newest slot is gone, its row's index entry repaired, and the operation
has counted it (R35, R52, R65). -/
def State.unwound (u : State) (slots : List SlotEntry) (e : SlotEntry) (o : LongOp) : State :=
  { u with
    slots := slots, slotHeaders := u.slotHeaders.dropLast
    index := match e.backLink with
      | some b => indexSet u.index e.target b
      | none => indexErase u.index e.target
    longOp := some o }

theorem State.dropRecord_count {slots : List SlotEntry} {e : SlotEntry} (h : u.slots = slots ++ [e])
    (ho : u.longOp = some o) (f : LongOp → LongOp) : u.dropRecord.count f = u.unwound slots e (f o) := by
  rw [State.dropRecord_eq h]
  exact State.count_eq (u := { u with slots := slots, slotHeaders := _, index := _ }) ho f

theorem State.targetWritten_eq {slots : List SlotEntry} {e : SlotEntry} (h : u.slots = slots ++ [e])
    (ho : u.longOp = some o) :
    u.targetWritten = (u.unwound slots e { o with restored := o.restored + 1 }).restoreNext :=
  congrArg State.restoreNext (State.dropRecord_count h ho _)

theorem State.imageRead_unwound {slots : List SlotEntry} {e : SlotEntry} {x : Row} (h : u.slots = slots ++ [e])
    (hbad : rowGood (u.base.toNat + 3 + 2 * slots.length) x = false) (ho : u.longOp = some o) (hkind : o.kind = .resume)
    (hskip : o.skip = true) :
    u.imageRead slots.length x =
      ((u.file (unitFault .imageCheck .journalUnit e.target (some slots.length) u.epochOrZero)).unwound slots e
        { o with skipped := o.skipped + 1 }).restoreNext := by
  rw [State.imageRead_skipped (by rw [h]; exact List.getElem?_concat_length) hbad ho hkind hskip,
    State.dropRecord_count (by simpa using h) (by simpa using ho)]

/-- The restores go on below the slot that has left the table (R52). -/
theorem State.restoreNext_unwound {slots : List SlotEntry} {e : SlotEntry}
    (hfloor : o.kind = .undo → u.segmentStart < slots.length) (hslots : slots ≠ []) :
    (u.unwound slots e o).restoreNext =
      (u.unwound slots e o).asksMaint (.restoreImage (slots.length - 1))
        (.read (u.base.toNat + 3 + 2 * (slots.length - 1))) := by
  refine State.restoreNext_image (s := u.unwound slots e o) ?_
  by_cases hkind : o.kind = .undo
  · rw [State.restoreFloor_undo (s := u.unwound slots e o) rfl hkind]
    exact hfloor hkind
  · rw [State.restoreFloor_rollback (s := u.unwound slots e o) rfl hkind]
    exact List.length_pos_iff.mpr hslots

/-- An UNDO ends when its savepoint is reached (R54). -/
theorem State.restoreNext_unwound_undone {slots : List SlotEntry} {e : SlotEntry} (hkind : o.kind = .undo)
    (hfloor : slots.length ≤ u.segmentStart) (horigin : o.origin ≠ .start) (hconfigured : u.operating ≠ .unconfigured) :
    (u.unwound slots e o).restoreNext =
      ((u.unwound slots e o).endedWith .opened (o.record .done none none u.epochOrZero)).settleLatch :=
  (State.restoreNext_undone (s := u.unwound slots e o) rfl hkind hfloor).trans
    (State.endOperation_link (u.unwound slots e o) o _ _ _ _ rfl horigin (.inl hconfigured))

end

/-- Settles O43, each result of the restore by what its task makes of it. -/
theorem restoreWritesImageAndRepairsIndex : Obligations.RestoreWritesImageAndRepairsIndex := by
  unfold Obligations.RestoreWritesImageAndRepairsIndex
  refine ⟨fun s f slots e o hport hrequester hslots ho => ⟨fun x hmaint hop hx hgood => ?_,
    fun content hmaint hop hfloor hne => ?_⟩, fun s slots e o index hslots ho hindex =>
    ⟨fun content hwrites hkind hfloor horigin hconfigured => ?_, fun x t hreads hbad hkind hskip ht => ?_,
      fun u c kind hcause horigin hconfigured => ?_⟩⟩
  · refine exec_maintReads ⟨hmaint, hx, f, hport, hrequester, hop⟩ fun htask => ?_
    rw [State.deliverMaint_restoreImage htask]
    obtain ⟨v, hu⟩ := s.portFreed_withPort
    rw [hu]
    exact State.imageRead_good (u := s.withPort v)
      (show s.slots[slots.length]? = some e by rw [hslots]; exact List.getElem?_concat_length) hgood
  · refine exec_maintWrites ⟨hmaint, f, hport, hrequester, hop⟩ fun htask => ?_
    rw [State.deliverMaint_restoreTarget htask]
    obtain ⟨v, hu⟩ := s.wrote_withPort e.target content
    have hu' : ({ s with mem := s.mem.write e.target content } : State).portFreed = _ := hu
    rw [hu, hu', State.targetWritten_eq (u := s.withPort v) hslots ho]
    exact State.restoreNext_unwound (u := s.withPort v) hfloor hne
  · subst hindex
    refine exec_maintWrites hwrites fun htask => ?_
    rw [State.deliverMaint_restoreTarget htask]
    obtain ⟨v, hu⟩ := s.wrote_withPort e.target content
    rw [hu, State.targetWritten_eq (u := s.withPort v) hslots ho]
    exact State.restoreNext_unwound_undone (u := s.withPort v) hkind hfloor horigin hconfigured
  · have hexec : exec (.memoryAttemptDone none) s = .next t.restoreNext := by
      refine exec_maintReads hreads fun htask => ?_
      rw [State.deliverMaint_restoreImage htask, ht, hindex]
      obtain ⟨v, hu⟩ := s.portFreed_withPort
      rw [hu, State.imageRead_unwound (u := s.withPort v) hslots hbad ho hkind hskip, State.file_eq, State.file_eq]
      rfl
    have hfiled : t.slots = slots ∧ t.longOp = some { o with skipped := o.skipped + 1 } ∧ t.active = s.active
        ∧ t.anchorA = s.anchorA ∧ t.anchorB = s.anchorB ∧ t.epoch = s.epoch := by
      obtain ⟨v, hu⟩ := s.portFreed_withPort
      rw [ht, hu, State.file_eq]
      exact ⟨rfl, rfl, rfl, rfl, rfl, rfl⟩
    obtain ⟨hleft, hop, hactive, hA, hB, hepoch⟩ := hfiled
    have hnotUndo : ({ o with skipped := o.skipped + 1 } : LongOp).kind ≠ .undo := fun h => nomatch hkind.symm.trans h
    rw [hexec]
    refine ⟨fun hne => ?_, fun hempty hepochs copy row hcopy hrow => ?_, fun hempty hlast => ?_⟩
    · have hbase : s.base = t.base := by rw [State.base, ← hactive]; rfl
      rw [State.restoreNext_image, hleft, hbase]
      rw [State.restoreFloor_rollback hop hnotUndo, hleft]
      exact List.length_pos_iff.mpr hne
    · rw [State.restoreNext_advance hop hnotUndo (hleft.trans hempty)]
      exact congrArg Host.Outcome.next (State.startAdvance_anchor_of hA hB hactive hepoch hepochs hcopy hrow)
    · rw [State.restoreNext_advance hop hnotUndo (hleft.trans hempty)]
      exact congrArg Host.Outcome.next (State.startAdvance_wipe_of hactive hepoch hlast)
  · have hslot : s.slots[slots.length]? = some e := by rw [hslots]; exact List.getElem?_concat_length
    obtain ⟨rfl, rfl, rfl, hplain, x, hreads, hbad⟩ | ⟨rfl, left, hfails⟩ | ⟨left, content, rfl, hfails⟩ := hcause
    · refine exec_maintReads hreads fun htask => ?_
      rw [State.deliverMaint_restoreImage htask]
      obtain ⟨v, hu⟩ := s.portFreed_withPort
      rw [hu, State.imageRead_stopped (u := s.withPort v) hbad ho hplain]
      exact State.restoreStopped_link (u := s.withPort v) hslot ho horigin hconfigured _
    · refine exec_maintFails_read hfails fun m hm htask => ?_
      rw [State.deliverMaint_restoreImage_failed htask, hm]
      obtain ⟨v, hu⟩ := s.portFreed_withPort
      rw [hu]
      exact State.restoreStopped_link (u := s.withPort v) hslot ho horigin hconfigured _
    · refine exec_maintFails_write hfails fun m hm htask => ?_
      rw [State.deliverMaint_restoreTarget_failed htask, hm]
      obtain ⟨v, hu⟩ := s.wroteInPart_withPort e.target content left
      rw [hu]
      exact State.restoreStopped_link (u := s.withPort v) hslot ho horigin hconfigured _

end Sys2Proof.Machine

/-! SUPPORT. The anchor copies and the wipe on MAINT (R7, R25 to R27, R68, R69): how they go on and end, and the
obligations about the advance, the format and the wipe. -/
namespace Sys2Proof.Machine

set_option Elab.async false

section
variable {u : State}

/-! ## The confirming read -/

theorem State.setAnchor_eq (copy : Copy) (record : AnchorRecord) :
    u.setAnchor copy record =
      { u with
        anchorA := if copy = Copy.a then record else u.anchorA
        anchorB := if copy = Copy.b then record else u.anchorB } := by
  cases copy <;> rfl

theorem State.anchorRow_eq (copy : Copy) : u.anchorRow copy = u.base.toNat + (if copy = Copy.a then 0 else 1) := by
  cases copy <;> rfl

/-- What a confirming read has to return: a GOOD row with the four fields as intended (R7, R25, R200). -/
def State.intends (u : State) (copy : Copy) (epoch : Word) (x : Row) : Prop :=
  rowGood (u.base.toNat + (if copy = Copy.a then 0 else 1)) x = true
    ∧ Anchor.decode x.data = { marker := 0x6B31D4E8#32, epoch := epoch, base := u.base, nSlots := u.nSlots }

theorem State.holdsAnchor_iff_intends {copy : Copy} {epoch : Word} {x : Row} :
    u.holdsAnchor copy epoch x = true ↔ u.intends copy epoch x := by
  rw [State.holdsAnchor_iff, State.anchorRow_eq]
  rfl

theorem State.anchorReadBack_intended {copy : Copy} {epoch : Word} {x : Row} (h : u.intends copy epoch x)
    (goal : AnchorGoal) : u.anchorReadBack goal copy epoch x = u.anchorConfirmed goal copy epoch :=
  if_pos (State.holdsAnchor_iff_intends.mpr h)

theorem State.anchorReadBack_other {copy : Copy} {epoch : Word} {x : Row} (h : ¬ u.intends copy epoch x)
    (goal : AnchorGoal) : u.anchorReadBack goal copy epoch x = u.anchorFailed goal copy true .memoryFail :=
  if_neg fun hholds => h (State.holdsAnchor_iff_intends.mp hholds)

/-! ## A confirmed copy -/

/-- A confirmed copy's record is VALID (R9). -/
def State.confirmed (u : State) (copy : Copy) (epoch : Word) : State :=
  { u with
    anchorA := if copy = Copy.a then .valid epoch else u.anchorA
    anchorB := if copy = Copy.b then .valid epoch else u.anchorB }

theorem State.anchorConfirmed_advances {goal : AnchorGoal} (h : goal = .advance ∨ goal = .wipeSecond) (copy : Copy)
    (epoch : Word) :
    u.anchorConfirmed goal copy epoch =
      ({ u.confirmed copy epoch with
        epoch := some epoch, slots := [], slotHeaders := [], index := [], stack := [], nextSequence := 0#32
        exhausted := false, headerMark := 0 } : State).endOperation .opened .done none none := by
  unfold State.anchorConfirmed
  rw [State.setAnchor_eq]
  obtain rfl | rfl := h <;> rfl

theorem State.anchorConfirmed_formatSecond (copy : Copy) (epoch : Word) :
    u.anchorConfirmed .formatSecond copy epoch =
      ({ u.confirmed copy epoch with
        epoch := some epoch, nextSequence := 0#32, exhausted := false, headerMark := 0 } : State).endOperation
        .opened .done none none := by
  unfold State.anchorConfirmed
  rw [State.setAnchor_eq]
  rfl

/-- The second copy is written when the first is confirmed; a wipe's epoch is then current (R27, R69). -/
theorem State.anchorConfirmed_first {goal second : AnchorGoal} {copy : Copy} {epoch : Word} {r : Nat}
    (hr : r = u.base.toNat + (if copy = Copy.a then 1 else 0))
    (h : (goal = .wipeFirst ∧ second = AnchorGoal.wipeSecond) ∨ (goal = .formatFirst ∧ second = AnchorGoal.formatSecond)) :
    u.anchorConfirmed goal copy epoch =
      ({ u with
        epoch := if goal = .wipeFirst then some epoch else u.epoch
        anchorA := if copy = Copy.a then .valid epoch else .invalid
        anchorB := if copy = Copy.b then .valid epoch else .invalid } : State).asksMaint
        (.anchorWrite second copy.other epoch)
        (.write r (freshRow r
          (Anchor.encode { marker := 0x6B31D4E8#32, epoch := epoch, base := u.base, nSlots := u.nSlots }))) := by
  subst hr
  obtain ⟨rfl, rfl⟩ | ⟨rfl, rfl⟩ := h <;> cases copy <;> rfl

/-! ## A copy that fails -/

/-- An advance's copy fails: BROKEN, or OPEN for a COMMIT whose copy was not written (R25, R59). -/
theorem State.anchorFailed_advance {o : LongOp} (ho : u.longOp = some o) {copy : Copy} {row : Nat}
    (hrow : row = u.base.toNat + (if copy = Copy.a then 0 else 1)) (notWritten : Bool) (kind : FaultKind) :
    u.anchorFailed .advance copy notWritten kind =
      (u.file (unitFault kind .journalUnit row none u.epochOrZero)).failOperation
        (if notWritten = true ∧ o.kind = .commit then .opened
          else .broken (if u.journal = .committing then .completeCommit else .rollBack)) kind := by
  have hop : ∀ f, (u.file f).longOp = some o := fun f => by simpa using ho
  have hjournal : ∀ f, (u.file f).advanceAction = if u.journal = .committing then .completeCommit else .rollBack := by
    simp [State.advanceAction]
  rw [hrow, ← State.anchorRow_eq]
  unfold State.anchorFailed State.advanceFailed
  dsimp only
  rw [hop, hjournal]
  by_cases h : notWritten = true ∧ o.kind = .commit
  · rw [if_pos h, if_pos (by simpa using h)]
    rfl
  · rw [if_neg h, if_neg (by simpa using h)]
    rfl

/-- A journal is lost after its record is filed (R27). -/
theorem State.journalLost_filed (f : FaultRecord) (kind : FaultKind) :
    (u.file f).journalLost kind =
      ({ u.file f with slots := [], slotHeaders := [], index := [], stack := [] } : State).failOperation
        (.broken (if u.journal = .committing then .completeCommit else .rollBack)) kind := by
  have hjournal : (u.file f).emptyJournal.advanceAction = if u.journal = .committing then .completeCommit else .rollBack := by
    simp [State.advanceAction]
  exact congrArg (fun action => (u.file f).emptyJournal.failOperation (.broken action) kind) hjournal

/-- A wipe's copy fails, and the journal is lost (R27). -/
theorem State.anchorFailed_wipe {goal : AnchorGoal} (h : goal = .wipeFirst ∨ goal = .wipeSecond) {copy : Copy} {row : Nat}
    (hrow : row = u.base.toNat + (if copy = Copy.a then 0 else 1)) (notWritten : Bool) (kind : FaultKind) :
    u.anchorFailed goal copy notWritten kind =
      ({ u.file (unitFault kind .journalUnit row none u.epochOrZero) with
        slots := [], slotHeaders := [], index := [], stack := [] } : State).failOperation
        (.broken (if u.journal = .committing then .completeCommit else .rollBack)) kind := by
  rw [hrow, ← State.anchorRow_eq]
  obtain rfl | rfl := h <;> exact State.journalLost_filed _ _

/-- A format's copy fails (R69). -/
theorem State.anchorFailed_format {goal : AnchorGoal} (h : goal = .formatFirst ∨ goal = .formatSecond) {copy : Copy}
    {row : Nat} (hrow : row = u.base.toNat + (if copy = Copy.a then 0 else 1)) (notWritten : Bool) (kind : FaultKind) :
    u.anchorFailed goal copy notWritten kind =
      ({ u.file (unitFault kind .journalUnit row none u.epochOrZero) with epoch := none } : State).failOperation
        (.absent .anchorLost) kind := by
  rw [hrow, ← State.anchorRow_eq]
  obtain rfl | rfl := h <;> rfl

end

/-- Settles O41. -/
theorem confirmedAnchorEndsTheAdvance : Obligations.ConfirmedAnchorEndsTheAdvance := by
  unfold Obligations.ConfirmedAnchorEndsTheAdvance
  intro s f o copy epoch row hport hrequester hop hrow hmaint ho horigin hconfigured
  have hreads : s.maintReads (.anchorConfirm .advance copy epoch) row (s.mem.read row) :=
    ⟨hmaint, rfl, f, hport, hrequester, hop⟩
  obtain ⟨v, hu⟩ := s.portFreed_withPort
  constructor
  · rintro hintended
    refine exec_maintReads hreads fun htask => ?_
    rw [State.deliverMaint_anchorConfirm htask, hu, State.anchorReadBack_intended (u := s.withPort v) (by subst hrow; exact hintended),
      State.anchorConfirmed_advances (.inl rfl)]
    exact State.endOperation_link _ o _ _ _ _ ho horigin (.inl hconfigured)
  · intro hother
    refine exec_maintReads hreads fun htask => ?_
    rw [State.deliverMaint_anchorConfirm htask, hu, State.anchorReadBack_other (u := s.withPort v) (by subst hrow; exact hother),
      State.anchorFailed_advance (u := s.withPort v) ho hrow,
      State.file_failOperation (u := s.withPort v) ho horigin hconfigured]
    simp only [true_and]
    rfl

/-! ## The format -/

section
variable {s u : State}

theorem State.executeFormat_refused (hjournal : s.journal = .draining) (hslots : s.slots ≠ []) :
    s.executeFormat = s.refuseOperation .recordsPresent := if_pos (by simp [hjournal, State.tail, hslots])

theorem State.executeFormat_enters (h : s.journal ≠ .draining ∨ s.slots = []) : s.executeFormat = s.enterFormatting :=
  if_neg (by
    obtain h | h := h
    · simp [h]
    · simp [State.tail, h])

/-- The greatest epoch after a row: a row whose epoch is 0 raises nothing (R68). -/
theorem raiseEpoch_eq {w : Nat} (greatest epoch : Word) (good : Bool) (marker expected : BitVec w) :
    raiseEpoch greatest (good && marker == expected && epoch != 0#32) epoch =
      if good = true ∧ marker = expected ∧ greatest.toNat < epoch.toNat then epoch else greatest := by
  unfold raiseEpoch
  have hzero : greatest.toNat < epoch.toNat → epoch ≠ 0#32 := by
    rintro hlt rfl
    exact Nat.not_lt_zero _ hlt
  congr 1
  simp only [Bool.and_eq_true, beq_iff_eq, bne_iff_ne, decide_eq_true_eq, BitVec.lt_def, eq_iff_iff, and_assoc]
  exact ⟨fun ⟨hgood, hmarker, _, hlt⟩ => ⟨hgood, hmarker, hlt⟩,
    fun ⟨hgood, hmarker, hlt⟩ => ⟨hgood, hmarker, hzero hlt, hlt⟩⟩

theorem State.formatHeaders_next {k : Nat} (h : k < u.nSlots.toNat) (greatest : Word) :
    u.formatHeaders k greatest = u.asksMaint (.formatHeader k greatest) (.read (u.base.toNat + 2 + 2 * k)) := if_pos h

theorem State.formatHeaders_wipe {k : Nat} (h : u.nSlots.toNat ≤ k) :
    u.formatHeaders k 0xFFFFFFFF#32 =
      u.asksMaint (.wipeHeader 0 true) (.write (u.base.toNat + 2) (freshRow (u.base.toNat + 2) 0#128)) :=
  if_neg (Nat.not_lt.mpr h)

theorem State.formatHeaders_anchor {k : Nat} (h : u.nSlots.toNat ≤ k) {greatest : Word} (hlast : greatest ≠ 0xFFFFFFFF#32) :
    u.formatHeaders k greatest = u.writeAnchor .formatFirst (chooseAnchor u.anchorA u.anchorB) (greatest + 1#32) :=
  (if_neg (Nat.not_lt.mpr h)).trans (if_neg hlast)

end

/-- Settles O44. -/
theorem formatBeginsWithTheAnchors : Obligations.FormatBeginsWithTheAnchors := by
  unfold Obligations.FormatBeginsWithTheAnchors
  intro s o hdrain hkind horigin hconfigured
  refine ⟨fun hjournal hslots => ?_, fun h => ?_⟩
  · rw [exec_drainEnd_executes hdrain hkind]
    exact congrArg Host.Outcome.next ((State.executeFormat_refused (s := s.executing o) hjournal hslots).trans
      (State.executing_refuseOperation horigin hconfigured hjournal _))
  · rw [exec_drainEnd_executes hdrain hkind]
    exact congrArg Host.Outcome.next (State.executeFormat_enters (s := s.executing o) h)

end Sys2Proof.Machine

/-! SUPPORT. The format and the wipe on MAINT (R27, R67 to R69): the obligations about their results. -/
namespace Sys2Proof.Machine

set_option Elab.async false

section
variable {s u : State}

theorem State.file_op {o : LongOp} (ho : u.longOp = some o) (f : FaultRecord) : (u.file f).longOp = some o := by
  simpa using ho

/-- A format's operation fails without an epoch, and its record reports none (R69). -/
theorem State.formatFailed_linkEnded {o : LongOp} (ho : u.longOp = some o) (horigin : o.origin ≠ .start)
    (kind : FaultKind) :
    ({ u with epoch := none } : State).failOperation (.absent .anchorLost) kind =
      (({ u with epoch := none } : State).endedWith (.absent .anchorLost)
        (o.record .failed none (some kind) 0#32)).linkEnded :=
  State.failOperation_linkEnded ({ u with epoch := none } : State) o _ kind ho horigin

/-- An operation fails after its record is filed, in the epoch it had (R70). -/
theorem State.filed_linkEnded {o : LongOp} (ho : u.longOp = some o) (horigin : o.origin ≠ .start) (f : FaultRecord)
    (journal : JournalState) (kind : FaultKind) :
    (u.file f).failOperation journal kind =
      ((u.file f).endedWith journal (o.record .failed none (some kind) u.epochOrZero)).linkEnded := by
  rw [State.failOperation_linkEnded (u.file f) o journal kind (State.file_op ho f) horigin, State.file_epochOrZero]

/-- A lost journal's operation fails in the epoch it had (R27). -/
theorem State.lost_linkEnded {o : LongOp} (ho : u.longOp = some o) (horigin : o.origin ≠ .start) (f : FaultRecord)
    (journal : JournalState) (kind : FaultKind) :
    ({ u.file f with slots := [], slotHeaders := [], index := [], stack := [] } : State).failOperation journal kind =
      (({ u.file f with slots := [], slotHeaders := [], index := [], stack := [] } : State).endedWith journal
        (o.record .failed none (some kind) u.epochOrZero)).linkEnded := by
  rw [← State.file_epochOrZero u f]
  exact State.failOperation_linkEnded ({ u.file f with slots := [], slotHeaders := [], index := [], stack := [] } : State)
    o _ kind (State.file_op ho f) horigin

theorem State.formatAnchor_found {copy : Copy} {row : Nat} {greatest : Word} {x : Row}
    (hrow : row = u.base.toNat + (if copy = Copy.a then 0 else 1)) :
    raiseEpoch greatest (anchorPresent (u.anchorRow copy) x) (Anchor.decode x.data).epoch =
      if rowGood row x = true ∧ (Anchor.decode x.data).marker = 0x6B31D4E8#32
        ∧ greatest.toNat < (Anchor.decode x.data).epoch.toNat then (Anchor.decode x.data).epoch else greatest := by
  rw [State.anchorRow_eq, ← hrow]
  exact raiseEpoch_eq _ _ _ _ _

theorem State.formatHeader_found {k row : Nat} {greatest : Word} {x : Row} (hrow : row = u.base.toNat + 2 + 2 * k) :
    raiseEpoch greatest (headerPresent (u.headerRow k) x) (Header.decode x.data).epoch =
      if rowGood row x = true ∧ (Header.decode x.data).marker = 0xA#4
        ∧ greatest.toNat < (Header.decode x.data).epoch.toNat then (Header.decode x.data).epoch else greatest := by
  subst hrow
  exact raiseEpoch_eq _ _ _ _ _

end

/-- Settles O45. -/
theorem formatFindsItsEpoch : Obligations.FormatFindsItsEpoch := by
  unfold Obligations.FormatFindsItsEpoch
  refine ⟨fun s g x a found ha hslots => ⟨fun hreads hfound => ?_, fun hreads hfound => ?_⟩,
    fun s g c left kind hslots => ⟨fun hfails => ?_, fun hfails => ?_⟩,
    fun s k row g found x h hh hrow hreads hfound => ⟨fun hnext => ?_, fun hend hlast => ?_,
      fun hend hlast copy r hcopy hr => ?_⟩,
    fun s k row g c left kind o hrow hfails ho horigin => ?_⟩
  · refine exec_maintReads hreads fun htask => ?_
    obtain ⟨v, hu⟩ := s.portFreed_withPort
    rw [State.deliverMaint_formatAnchor htask, hu, hfound, ha,
      State.formatAnchor_found (u := s.withPort v) (row := s.base.toNat) rfl]
    rfl
  · refine exec_maintReads hreads fun htask => ?_
    obtain ⟨v, hu⟩ := s.portFreed_withPort
    rw [State.deliverMaint_formatAnchor htask, hu, hfound, ha,
      State.formatAnchor_found (u := s.withPort v) (row := s.base.toNat + 1) rfl]
    exact State.formatHeaders_next (u := s.withPort v) hslots _
  · refine exec_maintFails_read hfails fun m hm htask => ?_
    obtain ⟨v, hu⟩ := s.portFreed_withPort
    rw [State.deliverMaint_formatAnchor_failed htask, hu, hm]
    show ((s.withPort v).file _).asksMaint _ (.read (((s.withPort v).file _).base.toNat + 1)) = _
    rw [State.file_base]
    rfl
  · refine exec_maintFails_read hfails fun m hm htask => ?_
    obtain ⟨v, hu⟩ := s.portFreed_withPort
    rw [State.deliverMaint_formatAnchor_failed htask, hu, hm]
    refine (State.formatHeaders_next (by rw [State.file_nSlots]; exact hslots) _).trans ?_
    rw [State.file_base]
    rfl
  · refine exec_maintReads hreads fun htask => ?_
    obtain ⟨v, hu⟩ := s.portFreed_withPort
    rw [State.deliverMaint_formatHeader htask, hu, State.formatHeader_found (u := s.withPort v) hrow, ← hh, ← hfound,
      hrow]
    exact State.formatHeaders_next (u := s.withPort v) hnext _
  · refine exec_maintReads hreads fun htask => ?_
    obtain ⟨v, hu⟩ := s.portFreed_withPort
    rw [State.deliverMaint_formatHeader htask, hu, State.formatHeader_found (u := s.withPort v) hrow, ← hh, ← hfound,
      hlast]
    exact State.formatHeaders_wipe (u := s.withPort v) hend
  · refine exec_maintReads hreads fun htask => ?_
    obtain ⟨v, hu⟩ := s.portFreed_withPort
    rw [State.deliverMaint_formatHeader htask, hu, State.formatHeader_found (u := s.withPort v) hrow, ← hh, ← hfound,
      hcopy]
    rw [hcopy] at hr
    exact (State.formatHeaders_anchor (u := s.withPort v) hend hlast).trans (State.writeAnchor_eq _ _ _ hr)
  · refine exec_maintFails_read hfails fun m hm htask => ?_
    obtain ⟨v, hu⟩ := s.portFreed_withPort
    rw [State.deliverMaint_formatHeader_failed htask, hu, hm, hrow]
    exact State.formatFailed_linkEnded (u := (s.withPort v).file _)
      (State.file_op (u := s.withPort v) ho _) horigin kind

/-! ## The wipe -/

section
variable {u : State}

theorem State.wipeWritten_next {k : Nat} (h : k + 1 < u.nSlots.toNat) (forFormat : Bool) :
    u.wipeWritten k forFormat =
      u.asksMaint (.wipeHeader (k + 1) forFormat)
        (.write (u.base.toNat + 2 + 2 * (k + 1)) (freshRow (u.base.toNat + 2 + 2 * (k + 1)) 0#128)) := if_pos h

theorem State.wipeFailed_lost (k : Nat) (kind : FaultKind) :
    u.wipeFailed k false kind =
      ({ u.file (unitFault kind .journalUnit (u.base.toNat + 2 + 2 * k) (some k) u.epochOrZero) with
        slots := [], slotHeaders := [], index := [], stack := [] } : State).failOperation
        (.broken (if u.journal = .committing then .completeCommit else .rollBack)) kind :=
  State.journalLost_filed _ _

theorem State.wipeWritten_anchor {k : Nat} (h : u.nSlots.toNat ≤ k + 1) (forFormat : Bool) :
    u.wipeWritten k forFormat =
      u.writeAnchor (if forFormat then .formatFirst else .wipeFirst) (chooseAnchor u.anchorA u.anchorB) 1#32 :=
  if_neg (Nat.not_lt.mpr h)

end

/-- Settles O46. -/
theorem wipeAndAnchorPairEnd : Obligations.WipeAndAnchorPairEnd := by
  unfold Obligations.WipeAndAnchorPairEnd
  refine ⟨fun s k row content forFormat hrow hwrites => ⟨fun hnext => ?_, fun hend copy r hcopy hr => ?_⟩,
    fun s k row content forFormat c left kind o t hrow hfails ho horigin ht => ⟨fun hformat => ?_, fun hformat => ?_⟩,
    fun s goal copy epoch row content hrow hwrites => ?_,
    fun s goal second copy epoch row r x hrow hr hgoal hreads hgood hdecode => ?_,
    fun s goal copy epoch row x o t intended hrow hreads ho horigin hintended ht => ?_,
    fun s u t task op goal copy epoch row content c left kind o hrow hfails htask ht ho horigin => ?_,
    fun s copy epoch row x o intended hrow hreads ho horigin hop hactive hlatch hhead hintended => ?_⟩
  · refine exec_maintWrites hwrites fun htask => ?_
    obtain ⟨v, hu⟩ := s.wrote_withPort row content
    rw [State.deliverMaint_wipeHeader htask, hu, hrow]
    exact State.wipeWritten_next (u := s.withPort v) hnext _
  · refine exec_maintWrites hwrites fun htask => ?_
    obtain ⟨v, hu⟩ := s.wrote_withPort row content
    rw [State.deliverMaint_wipeHeader htask, hu, hcopy]
    rw [hcopy] at hr
    exact (State.wipeWritten_anchor (u := s.withPort v) hend _).trans (State.writeAnchor_eq _ _ _ hr)
  · refine exec_maintFails_write hfails fun m hm htask => ?_
    obtain ⟨v, hu⟩ := s.wroteInPart_withPort row content left
    rw [State.deliverMaint_wipeHeader_failed htask, ht, hu, hm, hrow, hformat]
    exact (State.wipeFailed_lost (u := s.withPort v) k kind).trans
      (State.lost_linkEnded (u := s.withPort v) ho horigin _ _ kind)
  · refine exec_maintFails_write hfails fun m hm htask => ?_
    obtain ⟨v, hu⟩ := s.wroteInPart_withPort row content left
    rw [State.deliverMaint_wipeHeader_failed htask, ht, hu, hm, hrow, hformat]
    exact State.formatFailed_linkEnded (u := (s.withPort v).file _)
      (State.file_op (u := s.withPort v) ho _) horigin kind
  · refine exec_maintWrites hwrites fun htask => ?_
    obtain ⟨v, hu⟩ := s.wrote_withPort row content
    rw [State.deliverMaint_anchorWrite htask, hu, State.anchorRow_eq, hrow]
    rfl
  · refine exec_maintReads hreads fun htask => ?_
    obtain ⟨v, hu⟩ := s.portFreed_withPort
    subst hrow
    rw [State.deliverMaint_anchorConfirm htask, hu, State.anchorReadBack_intended (u := s.withPort v) ⟨hgood, hdecode⟩]
    exact State.anchorConfirmed_first hr hgoal
  · obtain ⟨v, hu⟩ := s.portFreed_withPort
    have hintends : intended ↔ (s.withPort v).intends copy epoch x := by rw [hintended, hrow]; rfl
    have hread {next : State} (h : (s.withPort v).anchorReadBack goal copy epoch x = next) :
        exec (.memoryAttemptDone none) s = .next next :=
      exec_maintReads hreads fun htask => by rw [State.deliverMaint_anchorConfirm htask, hu, h]
    rw [ht, hu]
    refine ⟨fun h hgoal => ?_, fun h hgoal => ?_, fun h hgoal => ?_, fun h hgoal => ?_⟩
    · exact hread ((State.anchorReadBack_intended (hintends.mp h) goal).trans
        ((State.anchorConfirmed_advances (.inr hgoal) copy epoch).trans
          (State.endOperation_linkEnded _ o _ _ _ _ ho horigin)))
    · subst hgoal
      exact hread ((State.anchorReadBack_intended (hintends.mp h) _).trans
        ((State.anchorConfirmed_formatSecond copy epoch).trans (State.endOperation_linkEnded _ o _ _ _ _ ho horigin)))
    · exact hread ((State.anchorReadBack_other (fun h' => h (hintends.mpr h')) goal).trans
        ((State.anchorFailed_wipe (u := s.withPort v) hgoal hrow _ _).trans
          (State.lost_linkEnded (u := s.withPort v) ho horigin _ _ _)))
    · exact hread ((State.anchorReadBack_other (fun h' => h (hintends.mpr h')) goal).trans
        ((State.anchorFailed_format (u := s.withPort v) hgoal hrow _ _).trans
          (State.formatFailed_linkEnded (State.file_op (u := s.withPort v) ho _) horigin _)))
  · obtain ⟨v, hexec, hu⟩ : ∃ v, exec c s = .next ((s.withPort v).anchorFailed goal copy false kind) ∧ u = s.withPort v := by
      obtain ⟨rfl, rfl, rfl⟩ | ⟨rfl, rfl, rfl⟩ := htask
      · obtain ⟨v, hu⟩ := s.wroteInPart_withPort row content left
        exact ⟨v, exec_maintFails_write hfails fun m hm htask => by
          rw [State.deliverMaint_anchorWrite_failed htask, hu, hm], hu⟩
      · obtain ⟨v, hu⟩ := s.portFreed_withPort
        exact ⟨v, exec_maintFails_read hfails fun m hm htask => by
          rw [State.deliverMaint_anchorConfirm_failed htask, hu, hm], hu⟩
    rw [ht, hexec, hu]
    refine ⟨fun hgoal => congrArg Host.Outcome.next ?_, fun hgoal => congrArg Host.Outcome.next ?_,
      fun hgoal => congrArg Host.Outcome.next ?_⟩
    · subst hgoal
      refine (State.anchorFailed_advance (u := s.withPort v) ho hrow false kind).trans ?_
      rw [if_neg (by simp)]
      exact State.filed_linkEnded (u := s.withPort v) ho horigin _ _ kind
    · exact (State.anchorFailed_wipe (u := s.withPort v) hgoal hrow _ _).trans
        (State.lost_linkEnded (u := s.withPort v) ho horigin _ _ _)
    · exact (State.anchorFailed_format (u := s.withPort v) hgoal hrow _ _).trans
        (State.formatFailed_linkEnded (State.file_op (u := s.withPort v) ho _) horigin _)
  · obtain ⟨v, hu⟩ := s.portFreed_withPort
    have hintends : intended ↔ (s.withPort v).intends copy epoch x := by rw [hintended, hrow]; rfl
    have hread {next : State} (h : (s.withPort v).anchorReadBack .formatSecond copy epoch x = next) :
        exec (.memoryAttemptDone none) s = .next next :=
      exec_maintReads hreads fun htask => by rw [State.deliverMaint_anchorConfirm htask, hu, h]
    rw [hu]
    refine ⟨fun h => hread ?_, fun h => hread ?_⟩
    · exact (State.anchorReadBack_intended (hintends.mp h) _).trans ((State.anchorConfirmed_formatSecond copy epoch).trans
        (State.endOperation_leaves _ o _ _ _ _ ho horigin hop hactive hlatch hhead))
    · refine (State.anchorReadBack_other (fun h' => h (hintends.mpr h')) _).trans
        ((State.anchorFailed_format (u := s.withPort v) (.inr rfl) hrow _ _).trans ?_)
      rw [State.file_eq, State.file_eq]
      exact State.failOperation_leaves _ o _ _ ho horigin hop hactive hlatch hhead

end Sys2Proof.Machine

/-! SUPPORT. APPLY: its checks at execution (R169 to R171), and its activation with the journal step (R172, R173). -/
namespace Sys2Proof.Machine

set_option Elab.async false

section
variable {s : State} {o : LongOp}

/-! ## The checks -/

theorem State.anyFrozen_iff : s.freeze.toList.any id = true ↔ ∃ r : Fin 16, s.freeze[r] = true := by
  rw [List.any_eq_true]
  constructor
  · rintro ⟨b, hb, hset⟩
    obtain ⟨k, hk, rfl⟩ := List.getElem_of_mem hb
    exact ⟨⟨k, by simpa using hk⟩, by simpa using hset⟩
  · rintro ⟨r, hset⟩
    exact ⟨_, Vector.mem_toList_iff.mpr (Vector.getElem_mem r.isLt), hset⟩

/-- A frozen region, or a FREEZE that waits, refuses an APPLY (R169). -/
theorem State.frozen_iff : (s.freeze.toList.any id || s.deferredFreeze.isSome) = true ↔
    (∃ r : Fin 16, s.freeze[r] = true) ∨ s.deferredFreeze ≠ none := by
  rw [Bool.or_eq_true, State.anyFrozen_iff, Option.isSome_iff_ne_none]

theorem State.not_frozen (hflags : ∀ r : Fin 16, s.freeze[r] = false) (hdeferred : s.deferredFreeze = none) :
    ¬ (s.freeze.toList.any id || s.deferredFreeze.isSome) = true := fun h => by
  obtain ⟨r, hr⟩ | h := State.frozen_iff.mp h
  · exact absurd (hflags r) (by rw [hr]; decide)
  · exact h hdeferred

theorem State.not_recordsLeft (h : s.journal ≠ .draining ∨ s.slots = []) :
    ¬ (decide (s.journal = .draining) && s.tail != 0) = true := by
  obtain h | h := h <;> simp [State.tail, h]

theorem State.applyRefusal_records (hjournal : s.journal = .draining) (hslots : s.slots ≠ []) :
    s.applyRefusal = some .recordsPresent := if_pos (by simp [hjournal, State.tail, hslots])

theorem State.applyRefusal_frozen (hrecords : s.journal ≠ .draining ∨ s.slots = [])
    (h : (∃ r : Fin 16, s.freeze[r] = true) ∨ s.deferredFreeze ≠ none) : s.applyRefusal = some .frozen :=
  (if_neg (State.not_recordsLeft hrecords)).trans (if_pos (State.frozen_iff.mpr h))

section
variable (hrecords : s.journal ≠ .draining ∨ s.slots = []) (hflags : ∀ r : Fin 16, s.freeze[r] = false)
  (hdeferred : s.deferredFreeze = none)
include hrecords hflags hdeferred

theorem State.applyRefusal_invalid (h : s.staging.valid = false) : s.applyRefusal = some .invalidConfig :=
  (if_neg (State.not_recordsLeft hrecords)).trans
    ((if_neg (State.not_frozen hflags hdeferred)).trans (if_pos (by rw [h]; rfl)))

theorem State.applyRefusal_generation (hvalid : s.staging.valid = true) {c : ConfigRecord} (hactive : s.active = some c)
    (h : c.generation = 0xFFFFFFFF#32) : s.applyRefusal = some .generationExhausted :=
  (if_neg (State.not_recordsLeft hrecords)).trans
    ((if_neg (State.not_frozen hflags hdeferred)).trans ((if_neg (by rw [hvalid]; decide)).trans
      (if_pos (by rw [hactive]; exact congrArg some h))))

theorem State.applyRefusal_none (hvalid : s.staging.valid = true)
    (h : ∀ c, s.active = some c → c.generation ≠ 0xFFFFFFFF#32) : s.applyRefusal = none :=
  (if_neg (State.not_recordsLeft hrecords)).trans
    ((if_neg (State.not_frozen hflags hdeferred)).trans ((if_neg (by rw [hvalid]; decide)).trans
      (if_neg fun hlast => by
        obtain ⟨c, hactive, hc⟩ := Option.map_eq_some_iff.mp hlast
        exact h c hactive hc)))

end

theorem State.executeApply_refused {reason : Reason} (h : s.applyRefusal = some reason) :
    s.executeApply = s.refuseOperation reason := by
  unfold State.executeApply
  rw [h]

theorem State.executeApply_first (h : s.applyRefusal = none) (hactive : s.active = none) :
    s.executeApply = s.startCopyWrite .a := by
  unfold State.executeApply
  rw [h, hactive]

theorem areaDiffers_iff (c r : ConfigRecord) : areaDiffers c r = true ↔ c.nSlots ≠ r.nSlots ∨ c.base ≠ r.base := by
  simp [areaDiffers]

theorem State.executeApply_clears (h : s.applyRefusal = none) {c : ConfigRecord} (hactive : s.active = some c)
    (hslots : c.nSlots ≠ 0#16) (hdiffers : c.nSlots ≠ s.staging.nSlots ∨ c.base ≠ s.staging.base) :
    s.executeApply =
      s.asksMaint .slotZeroClear (.write (c.base.toNat + 2) (freshRow (c.base.toNat + 2) 0#128)) := by
  have hbase : s.base = c.base := by rw [State.base, hactive]; rfl
  rw [← hbase]
  unfold State.executeApply
  rw [h, hactive]
  exact if_pos (by rw [Bool.and_eq_true, areaDiffers_iff]; exact ⟨by simpa using hslots, hdiffers⟩)

theorem State.executeApply_copies (h : s.applyRefusal = none) {c : ConfigRecord} (hactive : s.active = some c)
    (hsame : c.nSlots = 0#16 ∨ (c.nSlots = s.staging.nSlots ∧ c.base = s.staging.base)) :
    s.executeApply = s.startCopyWrite s.applyTarget := by
  unfold State.executeApply
  rw [h, hactive]
  refine if_neg ?_
  rw [Bool.and_eq_true, areaDiffers_iff]
  rintro ⟨hslots, hdiffers⟩
  obtain hsame | ⟨hn, hb⟩ := hsame
  · simp [hsame] at hslots
  · exact hdiffers.elim (fun hne => hne hn) (fun hne => hne hb)

theorem State.applyTarget_of {copy : Copy} (h : s.designation = some copy) : s.applyTarget = copy.other := by
  unfold State.applyTarget
  rw [h]

/-- An APPLY that its checks refuse ends with the journal as it was (R169). -/
theorem State.executing_refused (horigin : o.origin ≠ .start) (reason : Reason) :
    (s.executing o).refuseOperation reason =
      (s.endedWith (if s.journal = JournalState.draining then .opened else s.journal)
        (o.record .refused (some reason) none s.epochOrZero)).linkEnded :=
  State.endOperation_linkEnded (s.executing o) { o with phase := .executing } _ _ _ _ rfl horigin

end

/-- Settles O47. -/
theorem applyMakesItsChecks : Obligations.ApplyMakesItsChecks := by
  unfold Obligations.ApplyMakesItsChecks
  intro s o hdrain hkind horigin
  rw [exec_drainEnd_executes hdrain hkind]
  refine ⟨fun reason hreason => ?_, fun hrecords hflags hdeferred hvalid c hactive hgeneration => ?_,
    fun hrecords hflags hdeferred hvalid hactive => ?_⟩
  · have hrefusal : (s.executing o).applyRefusal = some reason := by
      obtain ⟨rfl, hjournal, hslots⟩ | ⟨rfl, hrecords, hfrozen⟩ | ⟨rfl, hrecords, hflags, hdeferred, hvalid⟩ |
        ⟨rfl, hrecords, hflags, hdeferred, hvalid, c, hactive, hc⟩ := hreason
      · exact State.applyRefusal_records (s := s.executing o) hjournal hslots
      · exact State.applyRefusal_frozen (s := s.executing o) hrecords hfrozen
      · exact State.applyRefusal_invalid (s := s.executing o) hrecords hflags hdeferred hvalid
      · exact State.applyRefusal_generation (s := s.executing o) hrecords hflags hdeferred hvalid hactive hc
    exact congrArg Host.Outcome.next ((State.executeApply_refused hrefusal).trans (State.executing_refused horigin reason))
  · have hrefusal : (s.executing o).applyRefusal = none :=
      State.applyRefusal_none (s := s.executing o) hrecords hflags hdeferred hvalid fun d hd => by
        obtain rfl : c = d := Option.some.inj (hactive.symm.trans hd)
        exact hgeneration
    refine ⟨fun hslots hdiffers => ?_, fun hsame => ⟨fun hdesignation => ?_, fun hdesignation => ?_⟩⟩
    · exact congrArg Host.Outcome.next
        (State.executeApply_clears (s := s.executing o) hrefusal hactive hslots hdiffers)
    · exact congrArg Host.Outcome.next ((State.executeApply_copies (s := s.executing o) hrefusal hactive hsame).trans
        (congrArg (s.executing o).startCopyWrite (State.applyTarget_of (s := s.executing o) hdesignation)))
    · exact congrArg Host.Outcome.next ((State.executeApply_copies (s := s.executing o) hrefusal hactive hsame).trans
        (congrArg (s.executing o).startCopyWrite (State.applyTarget_of (s := s.executing o) hdesignation)))
  · have hrefusal : (s.executing o).applyRefusal = none :=
      State.applyRefusal_none (s := s.executing o) hrecords hflags hdeferred hvalid fun d hd =>
        nomatch (show (none : Option ConfigRecord) = some d from hactive.symm.trans hd)
    exact congrArg Host.Outcome.next (State.executeApply_first (s := s.executing o) hrefusal hactive)

/-! ## The activation -/

section
variable {s t : State} {o : LongOp}

theorem State.applyGeneration_eq {generation : Word}
    (h : (∃ c, s.active = some c ∧ generation = c.generation + 1#32) ∨ (s.active = none ∧ generation = 1#32)) :
    s.applyGeneration = generation := by
  unfold State.applyGeneration
  obtain ⟨c, hactive, rfl⟩ | ⟨hactive, rfl⟩ := h <;> rw [hactive]

theorem State.applyRecord_eq {generation : Word}
    (h : (∃ c, s.active = some c ∧ generation = c.generation + 1#32) ∨ (s.active = none ∧ generation = 1#32)) :
    s.applyRecord = { s.staging with signature := 0x3D94A07C#32, generation := generation } := by
  rw [← State.applyGeneration_eq h]
  rfl

/-- The state in which the journal step of an activation is made (R172). -/
def State.activated (s : State) (r : ConfigRecord) (copy : Copy) : State :=
  { s with
    active := some r, staging := r, designation := some copy, alertMask := r.alertMask, configDegraded := false
    activationDue := false }

theorem State.activate_eq : ∃ unchanged, s.activate = (s.activated s.applyRecord s.applyTarget).applyJournalStep unchanged
    ∧ (unchanged = true ↔ ∃ c, s.active = some c ∧ c.base = s.applyRecord.base ∧ c.nSlots = s.applyRecord.nSlots) := by
  refine ⟨_, rfl, ?_⟩
  cases s.active with
  | none => simp
  | some c => simp [areaDiffers, and_comm]

theorem exec_applyActivation (hreset : s.inReset = false) (hdue : s.activationDue = true) (hjob : s.job = none) :
    exec .applyActivation s = .next s.activate :=
  congrArg Host.Outcome.next (if_pos (by simp [hreset, hdue, hjob]))

theorem State.applyJournalStep_dropped (h : t.nSlots = 0#16) (unchanged : Bool) :
    t.applyJournalStep unchanged =
      ({ t with
        epoch := none, anchorA := .invalid, anchorB := .invalid, slots := [], slotHeaders := [], index := []
        stack := [], nextSequence := 0#32, exhausted := false, headerMark := 0 } : State).endOperation
        (.absent .notConfigured) .done none none := if_pos h

theorem State.applyJournalStep_kept (h : t.nSlots ≠ 0#16) (hjournal : t.journal = .draining) {unchanged : Bool}
    (hsame : unchanged = true) : t.applyJournalStep unchanged = t.endOperation .opened .done none none :=
  (if_neg h).trans (if_pos (by simp [hjournal, hsame]))

theorem State.applyJournalStep_formats (h : t.nSlots ≠ 0#16) {unchanged : Bool}
    (hdiffers : t.journal ≠ .draining ∨ unchanged ≠ true) :
    t.applyJournalStep unchanged = ({ t with anchorA := .invalid, anchorB := .invalid } : State).enterFormatting :=
  (if_neg h).trans (if_neg (by
    rw [Bool.and_eq_true, decide_eq_true_eq]
    exact fun ⟨hjournal, hsame⟩ => hdiffers.elim (fun hne => hne hjournal) (fun hne => hne hsame)))

end

/-- Settles O50. -/
theorem activationInstallsTheStagedRecord : Obligations.ActivationInstallsTheStagedRecord := by
  unfold Obligations.ActivationInstallsTheStagedRecord
  refine ⟨fun s generation hreset hdue hjob hgeneration => ?_,
    fun s t r o copy hreset hdue hjob ho horigin hcopy hr ht => ?_⟩
  · obtain ⟨unchanged, hactivate, _⟩ := s.activate_eq
    have hrecord : s.applyRecord = { s.staging with signature := 0x3D94A07C#32, generation := generation } :=
      State.applyRecord_eq (hgeneration.imp_right fun ⟨hnone, _, hg⟩ => ⟨hnone, hg⟩)
    refine ⟨_, exec_applyActivation hreset hdue hjob, ?_⟩
    have hfirst : s.active = none → s.applyTarget = .a := by
      intro hnone
      obtain ⟨c, hactive, _⟩ | ⟨_, hdesignation, _⟩ := hgeneration
      · exact nomatch hnone.symm.trans hactive
      · unfold State.applyTarget
        rw [hdesignation]
    have hdesignation : s.activate.designation = some s.applyTarget := by simp [hactivate, State.activated]
    exact ⟨by simp [hactivate, hrecord, State.activated], by simp [hactivate, hrecord, State.activated],
      fun h => by rw [hdesignation, State.applyTarget_of h]; rfl,
      fun h => by rw [hdesignation, State.applyTarget_of h]; rfl, fun h => by rw [hdesignation, hfirst h],
      by simp [hactivate, hrecord, State.activated], by simp [hactivate, State.activated],
      by simp [hactivate, State.activated], by simp, by simp, by simp, by simp, by simp, by simp⟩
  · have htarget : s.applyTarget = copy := by
      unfold State.applyTarget
      obtain ⟨h, rfl⟩ | ⟨h, rfl⟩ | ⟨h, rfl⟩ := hcopy <;> rw [h] <;> rfl
    have hrecord : s.applyRecord = r := by rw [hr]; rfl
    obtain ⟨unchanged, hactivate, hunchanged⟩ := s.activate_eq
    rw [hrecord] at hactivate hunchanged
    have ht' : t = s.activated r copy := ht
    rw [exec_applyActivation hreset hdue hjob, hactivate, htarget, ← ht']
    have hop : t.longOp = some o := by rw [ht]; exact ho
    have hn : t.nSlots = r.nSlots := by rw [ht]; rfl
    refine ⟨fun u hnone hu => ?_, fun c hsome hjournal hactive hb hc => ?_, fun hsome hdiffers => ?_⟩
    · rw [State.applyJournalStep_dropped (hn.trans hnone), hu]
      refine ⟨congrArg Host.Outcome.next (State.endOperation_linkEnded _ o _ _ _ _ hop horigin),
        fun hunconfigured hlatch hhead => ?_⟩
      subst ht
      exact congrArg Host.Outcome.next (State.endOperation_leaves _ o _ _ _ _ ho horigin hunconfigured
        (Option.some_ne_none r) hlatch hhead)
    · subst ht
      rw [State.applyJournalStep_kept (by exact hsome) (by exact hjournal) (hunchanged.mpr ⟨c, hactive, hb, hc⟩)]
      exact congrArg Host.Outcome.next (State.endOperation_linkEnded _ o _ _ _ _ ho horigin)
    · have hmoved : s.journal ≠ .draining ∨ unchanged ≠ true := hdiffers.imp_right fun hne hsame => by
        obtain ⟨c, hactive, hb, hc⟩ := hunchanged.mp hsame
        exact hne c hactive ⟨hb, hc⟩
      subst ht
      exact congrArg Host.Outcome.next (State.applyJournalStep_formats (by exact hsome) (by exact hmoved))

end Sys2Proof.Machine

/-! SUPPORT. The copy write of an APPLY on MAINT, row by row, its confirmation and its failures (R163, R170, R171, R201). -/
namespace Sys2Proof.Machine

set_option Elab.async false

section
variable {s u : State}

/-! ## The result of each task of a copy write -/

theorem State.deliverMaint_slotZeroClear (h : u.maint = some .slotZeroClear) (x : Row) :
    u.deliverMaint (.done x) = u.startCopyWrite u.applyTarget := by
  unfold State.deliverMaint
  rw [h]

theorem State.deliverMaint_slotZeroClear_failed (h : u.maint = some .slotZeroClear) (m : MemFault) :
    u.deliverMaint (.failed m) = u.applyFailed (u.headerRow 0) m.kind := by
  unfold State.deliverMaint
  rw [h]

section
variable {copy : Copy} {i : Nat} {rows : List Row}

theorem State.deliverMaint_copyClear (h : u.maint = some (.copyClear copy)) (x : Row) :
    u.deliverMaint (.done x) = u.writeBody copy 0 := by
  unfold State.deliverMaint
  rw [h]

theorem State.deliverMaint_copyClear_failed (h : u.maint = some (.copyClear copy)) (m : MemFault) :
    u.deliverMaint (.failed m) = u.applyFailed copy.closingRow m.kind := by
  unfold State.deliverMaint
  rw [h]

theorem State.deliverMaint_copyBody (h : u.maint = some (.copyBody copy i)) (x : Row) :
    u.deliverMaint (.done x) = if i < 14 then u.writeBody copy (i + 1) else u.writeClosing copy := by
  unfold State.deliverMaint
  rw [h]

theorem State.deliverMaint_copyBody_failed (h : u.maint = some (.copyBody copy i)) (m : MemFault) :
    u.deliverMaint (.failed m) = u.applyFailed (copy.firstRow + i) m.kind := by
  unfold State.deliverMaint
  rw [h]

theorem State.deliverMaint_copyClose (h : u.maint = some (.copyClose copy)) (x : Row) :
    u.deliverMaint (.done x) = u.confirmRow copy 0 [] := by
  unfold State.deliverMaint
  rw [h]

theorem State.deliverMaint_copyClose_failed (h : u.maint = some (.copyClose copy)) (m : MemFault) :
    u.deliverMaint (.failed m) = u.applyFailed copy.closingRow m.kind := by
  unfold State.deliverMaint
  rw [h]

theorem State.deliverMaint_copyConfirm (h : u.maint = some (.copyConfirm copy i rows)) (x : Row) :
    u.deliverMaint (.done x) =
      if i < 15 then u.confirmRow copy (i + 1) (rows ++ [x]) else u.copyReadBack copy (rows ++ [x]) := by
  unfold State.deliverMaint
  rw [h]

theorem State.deliverMaint_copyConfirm_failed (h : u.maint = some (.copyConfirm copy i rows)) (m : MemFault) :
    u.deliverMaint (.failed m) = u.applyFailed (copy.firstRow + i) m.kind := by
  unfold State.deliverMaint
  rw [h]

end

/-! ## The rows of a copy -/

theorem Copy.firstRow_eq (copy : Copy) : copy.firstRow = if copy = Copy.a then 0 else 16 := by
  cases copy <;> rfl

theorem State.setCopy_eq (copy : Copy) (record : CopyRecord) :
    u.setCopy copy record =
      { u with
        copyA := if copy = Copy.a then record else u.copyA
        copyB := if copy = Copy.b then record else u.copyB } := by
  cases copy <;> rfl

theorem State.startCopyWrite_eq (copy : Copy) :
    u.startCopyWrite copy =
      ({ u with
        copyA := if copy = Copy.a then .invalid else u.copyA
        copyB := if copy = Copy.b then .invalid else u.copyB } : State).asksMaint (.copyClear copy)
        (.write (copy.firstRow + 15) (freshRow (copy.firstRow + 15) 0#128)) := by
  cases copy <;> rfl

theorem State.writeBody_eq {r : ConfigRecord} (h : u.applyRecord = r) (copy : Copy) (i : Nat) :
    u.writeBody copy i =
      u.asksMaint (.copyBody copy i) (.write (copy.firstRow + i) (freshRow (copy.firstRow + i) (configRowData r i))) := by
  subst h
  rfl

theorem State.writeClosing_eq {r : ConfigRecord} (h : u.applyRecord = r) (copy : Copy) :
    u.writeClosing copy =
      u.asksMaint (.copyClose copy)
        (.write (copy.firstRow + 15) (freshRow (copy.firstRow + 15) (configRowData r 15))) := by
  subst h
  rfl

/-! ## The confirmation -/

theorem State.copyConfirmed_iff {r : ConfigRecord} (h : u.applyRecord = r) (copy : Copy) (rows : List Row) :
    u.copyConfirmed copy rows = true ↔
      (∀ k y, rows[k]? = some y → rowGood (copy.firstRow + k) y = true) ∧ classifyCopy (rows.map Row.data) = some r := by
  subst h
  unfold State.copyConfirmed
  rw [Bool.and_eq_true, beq_iff_eq, List.all_eq_true]
  refine and_congr_left fun _ => ⟨fun hall k y hy => ?_, fun hall p hp => ?_⟩
  · exact hall (y, k) (List.mem_zipIdx_iff_getElem?.mpr hy)
  · exact hall p.2 p.1 (List.mem_zipIdx_iff_getElem?.mp hp)

theorem State.firstDiffering_same {copy : Copy} {i : Nat} {y : Row} (h : y = u.applyRow copy i) (rest : List Row) :
    u.firstDiffering copy i (y :: rest) = u.firstDiffering copy (i + 1) rest := by
  rw [State.firstDiffering, if_pos h]

theorem State.firstDiffering_other {copy : Copy} {i : Nat} {y : Row} (h : y ≠ u.applyRow copy i) (rest : List Row) :
    u.firstDiffering copy i (y :: rest) = copy.firstRow + i := by
  rw [State.firstDiffering, if_neg h]

/-- The first row read back otherwise than it was written (R170). -/
theorem State.firstDiffering_eq {copy : Copy} {y : Row} {rows : List Row} :
    ∀ {k i : Nat}, rows[k]? = some y → y ≠ u.applyRow copy (i + k) →
      (∀ m z, m < k → rows[m]? = some z → z = u.applyRow copy (i + m)) →
      u.firstDiffering copy i rows = copy.firstRow + (i + k) := by
  induction rows with
  | nil => exact fun hy => nomatch hy
  | cons first rest ih =>
    intro k i hy hne hbefore
    cases k with
    | zero =>
      obtain rfl : first = y := Option.some.inj hy
      exact State.firstDiffering_other hne rest
    | succ k =>
      have hshift : ∀ m, i + (m + 1) = i + 1 + m := fun m => by omega
      rw [State.firstDiffering_same (i := i) (hbefore 0 first (Nat.succ_pos k) rfl), hshift k]
      refine ih (i := i + 1) hy (hshift k ▸ hne) fun m z hm hz => ?_
      rw [← hshift m]
      exact hbefore (m + 1) z (Nat.succ_lt_succ hm) hz

theorem State.copyReadBack_due {copy : Copy} {rows : List Row} (hconfirmed : u.copyConfirmed copy rows = true)
    (h : u.active ≠ none ∨ copy = .b) :
    u.copyReadBack copy rows =
      { u.setCopy copy (.valid u.applyGeneration) with maint := none, activationDue := true } := by
  refine (if_pos hconfirmed).trans (if_neg ?_)
  have hactive : (u.setCopy copy (.valid u.applyGeneration)).active = u.active := by simp
  rw [hactive]
  obtain h | rfl := h
  · simp [h]
  · simp

theorem State.copyReadBack_first {rows : List Row} (hconfirmed : u.copyConfirmed .a rows = true) (h : u.active = none) :
    u.copyReadBack .a rows = (u.setCopy .a (.valid u.applyGeneration)).startCopyWrite .b :=
  (if_pos hconfirmed).trans (if_pos (by simp [State.setCopy, h]))

theorem State.copyReadBack_failed {copy : Copy} {rows : List Row} (hconfirmed : ¬ u.copyConfirmed copy rows = true) :
    u.copyReadBack copy rows = u.applyFailed (u.firstDiffering copy 0 rows) .memoryFail := if_neg hconfirmed

/-- A failed copy write files its record and ends with the journal as it was (R170). -/
theorem State.applyFailed_eq {o : LongOp} (ho : u.longOp = some o) (horigin : o.origin ≠ .start) (row : Nat)
    (kind : FaultKind) :
    u.applyFailed row kind =
      ((u.file (unitFault kind .configurationUnit row none u.epochOrZero)).endedWith
        (if u.journal = JournalState.draining then .opened else u.journal)
        (o.record .failed none (some kind) u.epochOrZero)).linkEnded :=
  State.filed_linkEnded ho horigin _ _ kind

end

/-- Settles O48. -/
theorem copyWriteGoesRowByRow : Obligations.CopyWriteGoesRowByRow := by
  unfold Obligations.CopyWriteGoesRowByRow
  refine ⟨fun s content copy other i first generation r hgeneration hr hfirst hother => ?_,
    fun s copy i first rows x generation r o confirmed hgeneration hr hfirst hreads ho horigin hconfirmed => ?_,
    fun s task op copy i first row rows content c left kind o t hfirst htask hfails ho horigin ht => ?_⟩
  · rw [← Copy.firstRow_eq] at hfirst
    subst hfirst
    have hrecord : s.applyRecord = r := (State.applyRecord_eq hgeneration).trans hr.symm
    refine ⟨fun hwrites hdesignation => ?_, fun hwrites => ?_, fun hwrites hi => ?_, fun hwrites => ?_, fun hwrites => ?_⟩
    · refine exec_maintWrites hwrites fun htask => ?_
      obtain ⟨v, hu⟩ := s.wrote_withPort (s.base.toNat + 2) content
      have htarget : (s.withPort v).applyTarget = copy := by
        refine (State.applyTarget_of (s := s.withPort v) hdesignation).trans ?_
        rw [hother]
        cases copy <;> rfl
      rw [State.deliverMaint_slotZeroClear htask, hu, htarget]
      exact State.startCopyWrite_eq copy
    · refine exec_maintWrites hwrites fun htask => ?_
      obtain ⟨v, hu⟩ := s.wrote_withPort (copy.firstRow + 15) content
      rw [State.deliverMaint_copyClear htask, hu]
      exact State.writeBody_eq (u := s.withPort v) hrecord copy 0
    · refine exec_maintWrites hwrites fun htask => ?_
      obtain ⟨v, hu⟩ := s.wrote_withPort (copy.firstRow + i) content
      rw [State.deliverMaint_copyBody htask, if_pos hi, hu]
      exact State.writeBody_eq (u := s.withPort v) hrecord copy (i + 1)
    · refine exec_maintWrites hwrites fun htask => ?_
      obtain ⟨v, hu⟩ := s.wrote_withPort (copy.firstRow + 14) content
      rw [State.deliverMaint_copyBody htask, if_neg (Nat.lt_irrefl 14), hu]
      exact State.writeClosing_eq (u := s.withPort v) hrecord copy
    · refine exec_maintWrites hwrites fun htask => ?_
      rw [State.deliverMaint_copyClose htask]
      rfl
  · rw [← Copy.firstRow_eq] at hfirst
    subst hfirst
    obtain ⟨v, hu⟩ := s.portFreed_withPort
    have hrecord : (s.withPort v).applyRecord = r := (State.applyRecord_eq (s := s.withPort v) hgeneration).trans hr.symm
    have hvalid : (s.withPort v).applyGeneration = generation := State.applyGeneration_eq (s := s.withPort v) hgeneration
    have hiff : confirmed ↔ (s.withPort v).copyConfirmed copy (rows ++ [x]) = true := by
      rw [hconfirmed, State.copyConfirmed_iff hrecord]
    have hlast {next : State} (hi : i = 15) (h : (s.withPort v).copyReadBack copy (rows ++ [x]) = next) :
        exec (.memoryAttemptDone none) s = .next next :=
      exec_maintReads hreads fun htask => by
        rw [State.deliverMaint_copyConfirm htask, if_neg (by omega), hu, h]
    refine ⟨fun hi => exec_maintReads hreads fun htask => ?_, fun hi hc hactive => ?_, fun hi hc hactive hcopy => ?_,
      fun hi hc k y hy hne hbefore => ?_⟩
    · rw [State.deliverMaint_copyConfirm htask, if_pos hi]
      rfl
    · refine hlast hi ((State.copyReadBack_due (hiff.mp hc) hactive).trans ?_)
      rw [hvalid, State.setCopy_eq, hu]
      rfl
    · subst hcopy
      refine hlast hi ((State.copyReadBack_first (hiff.mp hc) hactive).trans ?_)
      rw [hvalid, hu]
      rfl
    · refine hlast hi ((State.copyReadBack_failed fun h => hc (hiff.mpr h)).trans ?_)
      have hdiffers : (s.withPort v).firstDiffering copy 0 (rows ++ [x]) = copy.firstRow + k := by
        have happly : ∀ m, (s.withPort v).applyRow copy (0 + m) =
            freshRow (copy.firstRow + m) (configRowData r m) := fun m => by rw [Nat.zero_add, ← hrecord]; rfl
        rw [State.firstDiffering_eq (i := 0) hy (by rw [happly]; exact hne)
          (fun m z hm hz => by rw [happly]; exact hbefore m z hm hz), Nat.zero_add]
      rw [hdiffers, hu]
      exact State.applyFailed_eq (u := s.withPort v) ho horigin _ _
  · rw [← Copy.firstRow_eq] at hfirst
    subst hfirst
    obtain ⟨v, hexec, hu⟩ : ∃ v, exec c s = .next ((s.withPort v).applyFailed row kind) ∧ t = s.withPort v := by
      obtain ⟨rfl, rfl, rfl⟩ | ⟨htask, rfl, rfl⟩ | ⟨rfl, rfl, rfl⟩ | ⟨rfl, rfl, rfl⟩ := htask
      · obtain ⟨v, hu⟩ := s.wroteInPart_withPort (s.base.toNat + 2) content left
        exact ⟨v, exec_maintFails_write hfails fun m hm htask => by
          rw [State.deliverMaint_slotZeroClear_failed htask, hu, hm]; rfl, ht.trans hu⟩
      · obtain ⟨v, hu⟩ := s.wroteInPart_withPort (copy.firstRow + 15) content left
        obtain rfl | rfl := htask
        · exact ⟨v, exec_maintFails_write hfails fun m hm htask => by
            rw [State.deliverMaint_copyClear_failed htask, hu, hm]; rfl, ht.trans hu⟩
        · exact ⟨v, exec_maintFails_write hfails fun m hm htask => by
            rw [State.deliverMaint_copyClose_failed htask, hu, hm]; rfl, ht.trans hu⟩
      · obtain ⟨v, hu⟩ := s.wroteInPart_withPort (copy.firstRow + i) content left
        exact ⟨v, exec_maintFails_write hfails fun m hm htask => by
          rw [State.deliverMaint_copyBody_failed htask, hu, hm], ht.trans hu⟩
      · obtain ⟨v, hu⟩ := s.portFreed_withPort
        exact ⟨v, exec_maintFails_read hfails fun m hm htask => by
          rw [State.deliverMaint_copyConfirm_failed htask, hu, hm], ht.trans hu⟩
    rw [hexec, hu]
    exact congrArg Host.Outcome.next (State.applyFailed_eq (u := s.withPort v) ho horigin row kind)

end Sys2Proof.Machine

/-! SUPPORT. The attempts of the memory port (R149 to R153): a completed one, a retried one, an aborted one, and the last. -/
namespace Sys2Proof.Machine

set_option Elab.async false

section
variable {s : State} {f : Flight}

/-- The row that a torn write leaves is BAD (R149). -/
theorem rowGood_torn (row : Nat) (former new : Row) (data : RowData) (damage : Half) :
    rowGood row (residueRow row former new (.torn data damage)) = false := by
  have hdamage : (if damage = 0#16 then 1#16 else damage) ≠ 0#16 := by
    split
    · decide
    · next h => exact h
  show (checkValue row data ^^^ (if damage = 0#16 then 1#16 else damage) == checkValue row data) = false
  rw [beq_eq_false_iff_ne]
  exact fun h => hdamage ((BitVec.xor_right_inj (checkValue row data)).mp (h.trans BitVec.xor_zero.symm))

theorem exec_memoryAttemptDone_inFlight (hport : s.port = .inFlight f) (delivered : Option Row) :
    exec (.memoryAttemptDone delivered) s =
      .next ({ s with mem := (completeAttempt s.mem f.op delivered).1 }.finishOperation f
        (.done (completeAttempt s.mem f.op delivered).2)) := by
  show execMemoryAttemptDone delivered s = _
  unfold execMemoryAttemptDone
  rw [hport]

theorem exec_memoryAttemptFail_inFlight (hport : s.port = .inFlight f) (left : Residue) :
    exec (.memoryAttemptFail left) s = .next ((s.leaveResidue f.op left).attemptFailed f .fail) := by
  show execMemoryAttemptFail left s = _
  unfold execMemoryAttemptFail
  rw [hport]

theorem exec_abortAcknowledge_aborting (hport : s.port = .aborting f) (left : Residue) :
    exec (.abortAcknowledge left) s = .next ((s.leaveResidue f.op left).attemptFailed f .timeout) := by
  show execAbortAcknowledge left s = _
  unfold execAbortAcknowledge
  rw [hport]

theorem exec_attemptTimerExpiry_inFlight (hport : s.port = .inFlight f) :
    exec .attemptTimerExpiry s = .next { s with port := .aborting f } := by
  show execAttemptTimerExpiry s = _
  unfold execAttemptTimerExpiry
  rw [hport]

/-- An attempt that may be retried is retried at once, and counted (R151, R153). -/
theorem State.attemptFailed_retried (h : f.attempt ≤ f.retries.toNat) (left : Residue) (kind : MemFault) :
    (s.leaveResidue f.op left).attemptFailed f kind =
      { s with
        mem := match f.op with
          | .read _ => s.mem
          | .write row content => s.mem.write row (residueRow row (s.mem.read row) content left)
        port := .inFlight { f with attempt := f.attempt + 1, last := some kind }
        retryCounter := if s.retryCounter = 255#8 then 255#8 else s.retryCounter + 1#8 } := by
  unfold State.attemptFailed
  rw [if_pos h, ← countUp_eq]
  cases f.op <;> rfl

/-- A restore whose image read fails for good ends with the kind of its last attempt (R53, R57, R152). -/
theorem exec_restoreImage_failed {c : Instr} {left : Residue} {kind : FaultKind} {k row : Nat} {e : SlotEntry}
    {o : LongOp} (hfails : s.maintFails (.restoreImage k) (.read row) c left kind) (hslot : s.slots[k]? = some e)
    (ho : s.longOp = some o) (horigin : o.origin ≠ .start) (hconfigured : s.operating ≠ .unconfigured) :
    exec c s =
      .next ((s.portFreed.file (unitFault kind .journalUnit e.target (some k) s.epochOrZero)).endedWith
        (.broken .rollBack) (o.record .failed none (some kind) s.epochOrZero)).settleLatch := by
  refine exec_maintFails_read hfails fun m hm htask => ?_
  rw [State.deliverMaint_restoreImage_failed htask, hm]
  obtain ⟨v, hu⟩ := s.portFreed_withPort
  rw [hu]
  exact State.restoreStopped_link (u := s.withPort v) hslot ho horigin hconfigured _

end

/-- Settles O34. -/
theorem attemptsEndOrAreRetried : Obligations.AttemptsEndOrAreRetried := by
  unfold Obligations.AttemptsEndOrAreRetried
  refine ⟨fun s f delivered hport => ⟨_, exec_memoryAttemptDone_inFlight hport delivered, fun row content hop => ?_,
    fun row hop hdelivered => ?_⟩, ⟨fun s f left hretry => ⟨fun hport => ?_, fun hport => ?_⟩, fun row former new =>
      ⟨rfl, rfl, rowGood_torn row former new⟩⟩, fun s f hport => exec_attemptTimerExpiry_inFlight hport,
    fun c s t f hport he hack hreset => exec_keepsAborting he hport hack hreset,
    fun s f left k e o hrequester hop hlast hmaint hslot ho horigin hconfigured => ⟨fun hport => ?_, fun hport => ?_⟩⟩
  · simp [hop, completeAttempt]
  · simp [hop, hdelivered, completeAttempt]
  · exact (exec_memoryAttemptFail_inFlight hport left).trans
      (congrArg Host.Outcome.next (State.attemptFailed_retried hretry left .fail))
  · exact (exec_abortAcknowledge_aborting hport left).trans
      (congrArg Host.Outcome.next (State.attemptFailed_retried hretry left .timeout))
  · exact exec_restoreImage_failed ⟨hmaint, f, hrequester, hop, hlast, .inl ⟨rfl, hport, rfl⟩⟩ hslot ho horigin hconfigured
  · exact exec_restoreImage_failed ⟨hmaint, f, hrequester, hop, hlast, .inr ⟨rfl, hport, rfl⟩⟩ hslot ho horigin hconfigured

end Sys2Proof.Machine

/-! SUPPORT. The start's anchors: their classification and the selection (R8, R9, R78, R81). -/
namespace Sys2Proof.Machine

set_option Elab.async false

section
variable {s u : State}

/-! ## Classification -/

theorem anchorPresent_iff (row : Nat) (x : Row) :
    anchorPresent row x = true ↔
      rowGood row x = true ∧ (Anchor.decode x.data).marker = 0x6B31D4E8#32 ∧ (Anchor.decode x.data).epoch ≠ 0#32 := by
  simp [anchorPresent, anchorMarker, and_assoc]

theorem classifyAnchor_valid_iff (base : BitVec 24) (nSlots : BitVec 16) (row : Nat) (x : Row) (e : Word) :
    classifyAnchor base nSlots row x = .valid e ↔
      anchorPresent row x = true ∧ ((Anchor.decode x.data).base = base ∧ (Anchor.decode x.data).nSlots = nSlots)
        ∧ (Anchor.decode x.data).epoch = e := by
  unfold classifyAnchor
  by_cases hpresent : anchorPresent row x = true
  · by_cases hsame : (Anchor.decode x.data).base = base ∧ (Anchor.decode x.data).nSlots = nSlots
    · simp [hpresent, hsame]
    · simp [hpresent, hsame]
  · simp [hpresent]

theorem classifyAnchor_mismatched_iff (base : BitVec 24) (nSlots : BitVec 16) (row : Nat) (x : Row) :
    classifyAnchor base nSlots row x = .mismatched ↔
      anchorPresent row x = true ∧ ¬ ((Anchor.decode x.data).base = base ∧ (Anchor.decode x.data).nSlots = nSlots) := by
  unfold classifyAnchor
  by_cases hpresent : anchorPresent row x = true
  · by_cases hsame : (Anchor.decode x.data).base = base ∧ (Anchor.decode x.data).nSlots = nSlots
    · simp [hpresent, hsame]
    · simp [hpresent, hsame]
  · simp [hpresent]

/-! ## The anchor reads of the start -/

theorem State.deliverMaint_anchorRead {copy : Copy} (h : u.maint = some (.anchorRead copy)) (x : Row) :
    u.deliverMaint (.done x) =
      u.anchorClassified copy (classifyAnchor u.base u.nSlots (u.anchorRow copy) x) := by
  unfold State.deliverMaint
  rw [h]

theorem State.deliverMaint_anchorRead_failed {copy : Copy} (h : u.maint = some (.anchorRead copy)) (m : MemFault) :
    u.deliverMaint (.failed m) =
      (u.file (unitFault m.kind .journalUnit (u.anchorRow copy) none 0#32)).anchorClassified copy .invalid := by
  unfold State.deliverMaint
  rw [h]
  rfl

/-! ## The selection -/

/-- What a selection names: the epoch, and the row of the copy that is not VALID (R78). -/
theorem State.selectAnchor_scans {a b : AnchorRecord} (ha : u.anchorA = a) (hb : u.anchorB = b) {epoch : Word}
    {degraded : Option Nat}
    (h : (∃ ea eb, a = .valid ea ∧ b = .valid eb ∧ epoch = (if ea.toNat < eb.toNat then eb else ea) ∧ degraded = none)
      ∨ (a = .valid epoch ∧ (∀ eb, b ≠ .valid eb) ∧ degraded = some (u.base.toNat + 1))
      ∨ ((∀ ea, a ≠ .valid ea) ∧ b = .valid epoch ∧ degraded = some u.base.toNat)) :
    u.selectAnchor = (u.filed (degraded.map fun r => unitFault .anchorDegraded .journalUnit r none epoch)).startScan epoch := by
  unfold State.selectAnchor
  rw [ha, hb]
  obtain ⟨ea, eb, rfl, rfl, rfl, rfl⟩ | ⟨rfl, hb, rfl⟩ | ⟨ha, rfl, rfl⟩ := h
  · rfl
  · cases b with
    | valid eb => exact absurd rfl (hb eb)
    | mismatched => rfl
    | invalid => rfl
  · cases a with
    | valid ea => exact absurd rfl (ha ea)
    | mismatched => rfl
    | invalid => rfl

theorem State.selectAnchor_ends {a b : AnchorRecord} (ha : u.anchorA = a) (hb : u.anchorB = b)
    (hA : ∀ ea, a ≠ .valid ea) (hB : ∀ eb, b ≠ .valid eb) :
    u.selectAnchor =
      u.endStartQuietly (.absent (if a = .mismatched ∨ b = .mismatched then .anchorMismatch else .anchorLost)) := by
  unfold State.selectAnchor
  rw [ha, hb]
  cases a with
  | valid ea => exact absurd rfl (hA ea)
  | mismatched =>
    cases b with
    | valid eb => exact absurd rfl (hB eb)
    | mismatched => rfl
    | invalid => rfl
  | invalid =>
    cases b with
    | valid eb => exact absurd rfl (hB eb)
    | mismatched => rfl
    | invalid => rfl

theorem State.endStartQuietly_eq (journal : JournalState) :
    u.endStartQuietly journal =
      ({ u with journal := journal, readHeld := false, headHeld := false, longOp := none, maint := none } :
        State).startEnded :=
  State.endStartRunning_eq _

end

/-- Settles O36. -/
theorem anchorsAreClassifiedAndSelected : Obligations.AnchorsAreClassifiedAndSelected := by
  unfold Obligations.AnchorsAreClassifiedAndSelected
  refine ⟨fun base nSlots row x a ha => ⟨fun e => ?_, ?_⟩, fun s row x hrow hreads => ?_,
    fun s row c left kind hrow hfails => ?_, fun s t row a b c hrow ha hcause => ?_⟩
  · subst ha
    rw [classifyAnchor_valid_iff, anchorPresent_iff]
    simp only [and_assoc]
  · subst ha
    rw [classifyAnchor_mismatched_iff, anchorPresent_iff]
    simp only [and_assoc]
  · refine exec_maintReads hreads fun htask => ?_
    obtain ⟨v, hu⟩ := s.portFreed_withPort
    rw [State.deliverMaint_anchorRead htask, hu, hrow]
    rfl
  · refine exec_maintFails_read hfails fun m hm htask => ?_
    obtain ⟨v, hu⟩ := s.portFreed_withPort
    rw [State.deliverMaint_anchorRead_failed htask, hu, hm, hrow, State.file_eq, State.file_eq]
    rfl
  · obtain ⟨v, records, hexec, ht⟩ : ∃ v record, exec c s = .next (({ (s.withPort v).filed record with anchorB := b } : State).selectAnchor)
        ∧ t = (s.withPort v).filed record := by
      obtain ⟨v, hu⟩ := s.portFreed_withPort
      obtain ⟨rfl, rfl, x, hreads, rfl⟩ | ⟨rfl, left, kind, hfails, rfl⟩ := hcause
      · refine ⟨v, none, exec_maintReads hreads fun htask => ?_, hu⟩
        rw [State.deliverMaint_anchorRead htask, hu, hrow]
        rfl
      · refine ⟨v, some _, exec_maintFails_read hfails fun m hm htask => ?_, by rw [hu]; rfl⟩
        rw [State.deliverMaint_anchorRead_failed htask, hu, hm, hrow]
        rfl
    have hfields : t.anchorA = a ∧ t.base = s.base := by
      rw [ht, ha]
      cases records <;> simp [State.filed, State.withPort, State.base]
    obtain ⟨hA, hbase⟩ := hfields
    rw [hexec, ← ht]
    refine ⟨fun epoch degraded hselect => ?_, fun hnoA hnoB => ?_⟩
    · have hscans := State.selectAnchor_scans (u := { t with anchorB := b }) (degraded := degraded) hA rfl (epoch := epoch) (by
        rw [hrow] at hselect
        show _ ∨ (_ ∧ _ ∧ degraded = some (t.base.toNat + 1)) ∨ (_ ∧ _ ∧ degraded = some t.base.toNat)
        rw [hbase]
        exact hselect)
      rw [hscans, ← hbase]
      cases degraded with
      | none => rfl
      | some r =>
        simp only [Option.map_some, State.filed]
        rw [State.file_eq, State.file_eq]
        rfl
    · rw [State.selectAnchor_ends (u := { t with anchorB := b }) hA rfl hnoA hnoB, State.endStartQuietly_eq]

end Sys2Proof.Machine

/-! SUPPORT. The start's scan of the slots (R79 to R81): what it accepts, how it goes on, and how it stops. -/
namespace Sys2Proof.Machine

set_option Elab.async false

section
variable {s u : State}

/-! ## An accepted header -/

theorem headerValid_iff (memSize row : Nat) (x : Row) :
    headerValid memSize row x = true ↔
      rowGood row x = true ∧ (Header.decode x.data).marker = 0xA#4 ∧ (Header.decode x.data).epoch ≠ 0#32
        ∧ (Header.decode x.data).target.toNat < memSize := by
  simp [headerValid, headerPresent, headerMarker, and_assoc]

theorem newestSlot_eq_some_iff (slots : List SlotEntry) (row k : Nat) :
    newestSlot slots row = some k ↔
      (∃ e, slots[k]? = some e ∧ e.target = row) ∧ ∀ m e, k < m → slots[m]? = some e → e.target ≠ row := by
  unfold newestSlot
  rw [newestFrom_eq_some_iff]
  simp

/-- The back-link that the slots below call for (R33, R79). -/
theorem newestSlot_eq_link_iff (accepted : List SlotEntry) (h : Header) :
    newestSlot accepted h.target.toNat = h.link ↔
      (h.linked = true → ∃ e, accepted[h.backLink.toNat]? = some e ∧ e.target = h.target.toNat
        ∧ ∀ m e, h.backLink.toNat < m → accepted[m]? = some e → e.target ≠ h.target.toNat)
      ∧ (h.linked = false → ∀ e ∈ accepted, e.target ≠ h.target.toNat) := by
  unfold Header.link
  cases hlinked : h.linked with
  | false =>
    rw [if_neg Bool.false_ne_true, newestSlot, newestFrom_eq_none_iff]
    exact ⟨fun hall => ⟨fun habsurd => (nomatch habsurd), fun _ => hall⟩, fun hboth => hboth.2 rfl⟩
  | true =>
    rw [if_pos rfl, newestSlot_eq_some_iff]
    constructor
    · rintro ⟨⟨e, he, htarget⟩, habove⟩
      exact ⟨fun _ => ⟨e, he, htarget, habove⟩, fun habsurd => nomatch habsurd⟩
    · rintro ⟨hsome, _⟩
      obtain ⟨e, he, htarget, habove⟩ := hsome rfl
      exact ⟨⟨e, he, htarget⟩, habove⟩

/-- A header is accepted on the four conditions of R79. -/
theorem State.headerAccepted_iff (s : State) (k : Nat) (last : Option Word) (accepted : List SlotEntry) (x : Row) :
    s.headerAccepted k last accepted x = true ↔
      ((headerValid s.memSize (s.headerRow k) x = true ∧ some (Header.decode x.data).epoch = s.epoch)
        ∧ ∀ q, last = some q → q.toNat < (Header.decode x.data).sequence.toNat)
      ∧ newestSlot accepted (Header.decode x.data).target.toNat = (Header.decode x.data).link := by
  unfold State.headerAccepted
  cases last with
  | none => simp
  | some q => simp [BitVec.lt_def]

/-! ## The scan goes on, or stops -/

theorem State.deliverMaint_scanHeader {k : Nat} {headers : List SlotHeader} {accepted : List SlotEntry}
    (h : u.maint = some (.scanHeader k headers accepted)) (x : Row) :
    u.deliverMaint (.done x) = u.headerScanned k headers accepted x := by
  unfold State.deliverMaint
  rw [h]

theorem State.deliverMaint_scanHeader_failed {k : Nat} {headers : List SlotHeader} {accepted : List SlotEntry}
    (h : u.maint = some (.scanHeader k headers accepted)) (m : MemFault) :
    u.deliverMaint (.failed m) = u.scanFailed k headers accepted m.kind := by
  unfold State.deliverMaint
  rw [h]

section
variable {k : Nat} {headers : List SlotHeader} {accepted : List SlotEntry} {x : Row}

theorem State.headerScanned_next (h : u.headerAccepted k (lastSequence headers) accepted x = true)
    (hnext : k + 1 < u.nSlots.toNat) :
    u.headerScanned k headers accepted x =
      u.asksMaint (.scanHeader (k + 1) (headers ++ [acceptedHeader x]) (accepted ++ [acceptedEntry x]))
        (.read (u.base.toNat + 2 + 2 * (k + 1))) := (if_pos h).trans (if_pos hnext)

theorem State.headerScanned_last (h : u.headerAccepted k (lastSequence headers) accepted x = true)
    (hlast : u.nSlots.toNat ≤ k + 1) :
    u.headerScanned k headers accepted x =
      u.scanStopped (headers ++ [acceptedHeader x]) (accepted ++ [acceptedEntry x]) :=
  (if_pos h).trans (if_neg (Nat.not_lt.mpr hlast))

theorem State.headerScanned_stops (h : u.headerAccepted k (lastSequence headers) accepted x = false) :
    u.headerScanned k headers accepted x = u.scanStopped headers accepted := if_neg (ne_true_of_eq_false h)

theorem State.scanStopped_ends (hepoch : u.epochOrZero ≠ 0xFFFFFFFF#32) :
    u.scanStopped headers [] =
      ({ u with
        slots := [], slotHeaders := headers, index := [], stack := [], nextSequence := 0#32, exhausted := false
        headerMark := u.nSlots.toNat, journal := .opened, readHeld := false, headHeld := false, longOp := none
        maint := none } : State).startEnded :=
  (if_pos (by simpa [State.buildJournal, State.epochOrZero, maxWord] using hepoch)).trans (State.endStartQuietly_eq _)

/-- The state in which the start's rollback begins to restore (R32, R80). -/
def State.recovering (u : State) (headers : List SlotHeader) (accepted : List SlotEntry) : State :=
  { u with
    slots := accepted, slotHeaders := headers, index := indexFrom 0 [] accepted, stack := []
    recoveryMark := some u.nSlots.toNat, journal := .rollingBack, readHeld := false, headHeld := false }

theorem State.scanStopped_recovers (h : accepted ≠ [] ∨ u.epochOrZero = 0xFFFFFFFF#32) :
    u.scanStopped headers accepted = (u.recovering headers accepted).restoreNext := by
  refine if_neg ?_
  obtain h | h := h
  · simp [h]
  · simpa [State.buildJournal, State.epochOrZero, maxWord] using fun _ => h

/-- A failed header read ends the start with the slots accepted so far and the mark of R80 (R79, R80). -/
theorem State.scanFailed_eq {o : LongOp} (ho : u.longOp = some o) (horigin : o.origin = .start) (kind : FaultKind) :
    u.scanFailed k headers accepted kind =
      (({ u.file (unitFault kind .journalUnit (u.base.toNat + 2 + 2 * k) (some k) u.epochOrZero) with
        slots := accepted, slotHeaders := headers, index := indexFrom 0 [] accepted, stack := []
        headerMark := u.nSlots.toNat, recoveryMark := none } : State).endedWith (.broken .rollBack)
        (o.record .failed none (some kind) u.epochOrZero)).startEnded := by
  unfold State.scanFailed
  dsimp only
  rw [State.file_eq, State.file_eq]
  exact State.failOperation_startEnded _ o _ kind ho horigin

end

end

/-- Settles O37. -/
theorem recoveryScansTheSlots : Obligations.RecoveryScansTheSlots := by
  unfold Obligations.RecoveryScansTheSlots
  refine ⟨fun s k last accepted x h hh => ?_,
    fun s k row last headers taken accepted found x h o hh hrow hreads ho hkind hlast htaken hfound =>
      ⟨fun haccepted hnext => ?_, fun slots slotHeaders hstop => ?_⟩,
    fun s k row headers accepted c left kind o hrow hfails ho horigin => ?_⟩
  · subst hh
    rw [State.headerAccepted_iff, headerValid_iff, newestSlot_eq_link_iff, eq_comm (b := s.epoch)]
    simp only [and_assoc]
    rfl
  · refine exec_maintReads hreads fun htask => ?_
    obtain ⟨v, hu⟩ := s.portFreed_withPort
    subst hlast hh htaken hfound hrow
    rw [State.deliverMaint_scanHeader htask, hu]
    exact State.headerScanned_next (u := s.withPort v) haccepted hnext
  · obtain ⟨v, hu⟩ := s.portFreed_withPort
    have hstops : exec (.memoryAttemptDone none) s = .next ((s.withPort v).scanStopped slotHeaders slots) := by
      refine exec_maintReads hreads fun htask => ?_
      subst hlast hh htaken hfound
      rw [State.deliverMaint_scanHeader htask, hu]
      obtain ⟨hrejected, rfl, rfl⟩ | ⟨haccepted, hend, rfl, rfl⟩ := hstop
      · exact State.headerScanned_stops (u := s.withPort v) hrejected
      · exact State.headerScanned_last (u := s.withPort v) haccepted hend
    have hnotUndo : o.kind ≠ .undo := fun h => nomatch hkind.symm.trans h
    rw [hstops, hu]
    refine ⟨fun hnone hepoch => ?_, fun hnone hepoch => ?_, fun hsome => ?_⟩
    · rw [hnone]
      exact congrArg Host.Outcome.next (State.scanStopped_ends (u := s.withPort v) hepoch)
    · rw [State.scanStopped_recovers (u := s.withPort v) (.inr hepoch), hnone]
      exact congrArg Host.Outcome.next ((State.restoreNext_advance (s := (s.withPort v).recovering slotHeaders []) ho
        hnotUndo rfl).trans (State.startAdvance_wipe (s := (s.withPort v).recovering slotHeaders []) hepoch))
    · obtain ⟨hrising, hnewest⟩ := indexFrom_names_newest slots
      refine ⟨indexFrom 0 [] slots, hrising, hnewest, ?_⟩
      rw [State.scanStopped_recovers (u := s.withPort v) (.inl hsome)]
      refine congrArg Host.Outcome.next (State.restoreNext_image (s := (s.withPort v).recovering slotHeaders slots) ?_)
      rw [State.restoreFloor_rollback (s := (s.withPort v).recovering slotHeaders slots) ho hnotUndo]
      exact List.length_pos_iff.mpr hsome
  · obtain ⟨hrising, hnewest⟩ := indexFrom_names_newest accepted
    refine ⟨indexFrom 0 [] accepted, hrising, hnewest, exec_maintFails_read hfails fun m hm htask => ?_⟩
    obtain ⟨v, hu⟩ := s.portFreed_withPort
    rw [State.deliverMaint_scanHeader_failed htask, hu, hm, hrow]
    exact State.scanFailed_eq (u := s.withPort v) ho horigin kind

end Sys2Proof.Machine

/-! SUPPORT. The start's rollback on MAINT (R26, R27, R56, R57, R63, R80, R81): its advance, its end, and its failures. -/
namespace Sys2Proof.Machine

set_option Elab.async false

section
variable {s u : State} {o : LongOp}

/-- What is left of the journal's tables when an operation fails: nothing once a wipe has begun (R27). -/
def State.tablesLeft (u : State) (lost : Bool) : State :=
  { u with
    slots := if lost then [] else u.slots, slotHeaders := if lost then [] else u.slotHeaders
    index := if lost then [] else u.index, stack := if lost then [] else u.stack }

/-- A failed recovery ends the start with the header mark N_S that its scan's stop has set (R17, R80). -/
theorem State.failOperation_recovery (ho : u.longOp = some o) (horigin : o.origin = .start)
    (hmark : u.recoveryMark = some u.nSlots.toNat) (f : FaultRecord) (lost : Bool) (kind : FaultKind) :
    ((u.file f).tablesLeft lost).failOperation (.broken .rollBack) kind =
      ({ ((u.file f).tablesLeft lost).endedWith (.broken .rollBack)
          (o.record .failed none (some kind) u.epochOrZero) with
        headerMark := u.nSlots.toNat, recoveryMark := none } : State).startEnded := by
  have hheader : u.recoveryMark.getD u.headerMark = u.nSlots.toNat := by rw [hmark]; rfl
  rw [State.file_eq, ← hheader]
  exact State.failOperation_startEnded _ o _ kind ho horigin

/-- The start's rollback fails at a step of its restore or of its advance (R53, R57, R63, R80). -/
theorem State.anchorFailed_recovery (ho : u.longOp = some o) (hkind : o.kind = .rollback)
    (hjournal : u.journal = .rollingBack) {goal : AnchorGoal} {lost : Bool}
    (hgoal : (goal = .advance ∧ lost = false) ∨ ((goal = .wipeFirst ∨ goal = .wipeSecond) ∧ lost = true)) {copy : Copy}
    {row : Nat} (hrow : row = u.base.toNat + (if copy = Copy.a then 0 else 1)) (notWritten : Bool) (kind : FaultKind) :
    u.anchorFailed goal copy notWritten kind =
      ((u.file (unitFault kind .journalUnit row none u.epochOrZero)).tablesLeft lost).failOperation (.broken .rollBack)
        kind := by
  have haction : (if u.journal = .committing then ResumeAction.completeCommit else .rollBack) = .rollBack :=
    if_neg (by rw [hjournal]; exact fun h => nomatch h)
  obtain ⟨rfl, rfl⟩ | ⟨hgoal, rfl⟩ := hgoal
  · rw [State.anchorFailed_advance ho hrow, if_neg (fun h => OpKind.noConfusion (hkind.symm.trans h.2)), haction]
    rfl
  · rw [State.anchorFailed_wipe hgoal hrow, haction]
    rfl

theorem State.wipeFailed_recovery (hjournal : u.journal = .rollingBack) {k row : Nat}
    (hrow : row = u.base.toNat + 2 + 2 * k) (kind : FaultKind) :
    u.wipeFailed k false kind =
      ((u.file (unitFault kind .journalUnit row (some k) u.epochOrZero)).tablesLeft true).failOperation
        (.broken .rollBack) kind := by
  have haction : (if u.journal = .committing then ResumeAction.completeCommit else .rollBack) = .rollBack :=
    if_neg (by rw [hjournal]; exact fun h => nomatch h)
  rw [State.wipeFailed_lost, haction, hrow]
  rfl

end

/-- Settles O38; its invariant of the start's recovery is the recovery law's preservation by every step. -/
theorem rollbackEndsWithTheAdvance : Obligations.RollbackEndsWithTheAdvance := by
  unfold Obligations.RollbackEndsWithTheAdvance
  refine ⟨fun s e content o copy row hslots hwrites ho hkind hcopy hrow t ht => ?_,
    fun s t hc hs h => step_recoveryLaw hc hs h,
    fun s o goal copy epoch row x hrow hgoal hreads ho horigin hgood hdecode => ?_,
    fun s u o e goal copy epoch c left kind k row slot content x lost hlaw ho horigin hjournal hcause => ?_⟩
  · have hfields : exec (.memoryAttemptDone none) s = .next t.restoreNext ∧ t.slots = []
        ∧ t.longOp = some { o with restored := o.restored + 1 } ∧ t.active = s.active ∧ t.anchorA = s.anchorA
        ∧ t.anchorB = s.anchorB ∧ t.epoch = s.epoch := by
      obtain ⟨v, hu⟩ := s.wrote_withPort e.target content
      rw [hu] at ht
      subst ht
      refine ⟨exec_maintWrites hwrites fun htask => ?_, rfl, rfl, rfl, rfl, rfl, rfl⟩
      rw [State.deliverMaint_restoreTarget htask, hu]
      exact State.targetWritten_eq (u := s.withPort v) (slots := []) hslots ho
    obtain ⟨hexec, hempty, hop, hactive, hA, hB, hepoch⟩ := hfields
    have hnotUndo : ({ o with restored := o.restored + 1 } : LongOp).kind ≠ .undo := by
      obtain hkind | hkind := hkind <;> exact fun h => nomatch hkind.symm.trans h
    rw [hexec, State.restoreNext_advance hop hnotUndo hempty]
    exact ⟨fun h => congrArg Host.Outcome.next (State.startAdvance_anchor_of hA hB hactive hepoch h hcopy hrow),
      fun h => congrArg Host.Outcome.next (State.startAdvance_wipe_of hactive hepoch h)⟩
  · refine exec_maintReads hreads fun htask => ?_
    obtain ⟨v, hu⟩ := s.portFreed_withPort
    subst hrow
    rw [State.deliverMaint_anchorConfirm htask, hu,
      State.anchorReadBack_intended (u := s.withPort v) ⟨hgood, hdecode⟩, State.anchorConfirmed_advances hgoal]
    exact State.endOperation_startEnded _ o _ _ _ _ ho horigin
  · obtain ⟨hkind, -, -, hstage⟩ := hlaw o ho horigin
    have hmark : s.recoveryMark = some s.nSlots.toNat := by
      obtain hscanning | ⟨_, hmark⟩ := hstage
      · exact nomatch hscanning.symm.trans hjournal
      · exact hmark
    obtain ⟨v, hexec, hu⟩ : ∃ v, exec c s = .next (((s.withPort v).file
        (unitFault kind .journalUnit row slot s.epochOrZero)).tablesLeft lost |>.failOperation (.broken .rollBack) kind)
        ∧ u = s.withPort v := by
      obtain ⟨rfl, hslot, rfl, rfl, hcause⟩ | ⟨rfl, hrow, hgoal, hcause⟩ | ⟨rfl, hrow, rfl, hfails, rfl⟩ := hcause
      · obtain ⟨hreads, hbad, rfl, rfl, rfl⟩ | ⟨hfails, rfl⟩ | ⟨hfails, rfl⟩ := hcause
        · obtain ⟨v, hu⟩ := s.portFreed_withPort
          refine ⟨v, exec_maintReads hreads fun htask => ?_, hu⟩
          rw [State.deliverMaint_restoreImage htask, hu, State.imageRead_stopped (u := s.withPort v) hbad ho
            (fun h => OpKind.noConfusion (hkind.symm.trans h.1))]
          exact State.restoreStopped_eq (u := s.withPort v) hslot _
        · obtain ⟨v, hu⟩ := s.portFreed_withPort
          refine ⟨v, exec_maintFails_read hfails fun m hm htask => ?_, hu⟩
          rw [State.deliverMaint_restoreImage_failed htask, hu, hm]
          exact State.restoreStopped_eq (u := s.withPort v) hslot kind
        · obtain ⟨v, hu⟩ := s.wroteInPart_withPort e.target content left
          refine ⟨v, exec_maintFails_write hfails fun m hm htask => ?_, hu⟩
          rw [State.deliverMaint_restoreTarget_failed htask, hu, hm]
          exact State.restoreStopped_eq (u := s.withPort v) hslot kind
      · obtain ⟨hreads, rfl, rfl, hother, rfl⟩ | ⟨hfails, rfl⟩ | ⟨hfails, rfl⟩ := hcause
        · obtain ⟨v, hu⟩ := s.portFreed_withPort
          refine ⟨v, exec_maintReads hreads fun htask => ?_, hu⟩
          rw [State.deliverMaint_anchorConfirm htask, hu, State.anchorReadBack_other (u := s.withPort v)
            (fun h => hother (by rw [hrow]; exact h))]
          exact State.anchorFailed_recovery (u := s.withPort v) ho hkind hjournal hgoal hrow _ _
        · obtain ⟨v, hu⟩ := s.portFreed_withPort
          refine ⟨v, exec_maintFails_read hfails fun m hm htask => ?_, hu⟩
          rw [State.deliverMaint_anchorConfirm_failed htask, hu, hm]
          exact State.anchorFailed_recovery (u := s.withPort v) ho hkind hjournal hgoal hrow _ _
        · obtain ⟨v, hu⟩ := s.wroteInPart_withPort row content left
          refine ⟨v, exec_maintFails_write hfails fun m hm htask => ?_, hu⟩
          rw [State.deliverMaint_anchorWrite_failed htask, hu, hm]
          exact State.anchorFailed_recovery (u := s.withPort v) ho hkind hjournal hgoal hrow _ _
      · obtain ⟨v, hu⟩ := s.wroteInPart_withPort row content left
        refine ⟨v, exec_maintFails_write hfails fun m hm htask => ?_, hu⟩
        rw [State.deliverMaint_wipeHeader_failed htask, hu, hm]
        exact State.wipeFailed_recovery (u := s.withPort v) hjournal hrow kind
    rw [hexec, hu]
    refine congrArg Host.Outcome.next
      ((State.failOperation_recovery (u := s.withPort v) ho horigin hmark _ lost kind).trans ?_)
    rw [State.file_eq]
    rfl

end Sys2Proof.Machine

/-! SUPPORT. The start's load (R162 to R165), the installation with the request held since before it (R76, R77, R112 to
R120), and the end of a start without a configuration (R81, R82). -/
namespace Sys2Proof.Machine

set_option Elab.async false

/-! ## The load -/

theorem classifyCopy_eq_some_iff (rows : List RowData) (c : ConfigRecord) :
    classifyCopy rows = some c ↔
      c = decodeRecord rows ∧ c.signature = 0x3D94A07C#32 ∧ (∀ d ∈ rows, complementHolds d = true) ∧ c.valid = true := by
  unfold classifyCopy
  rw [Option.ite_none_right_eq_some, Bool.and_eq_true, Bool.and_eq_true, decide_eq_true_eq, List.all_eq_true]
  constructor
  · rintro ⟨⟨⟨hsignature, hcomplements⟩, hvalid⟩, heq⟩
    obtain rfl := Option.some.inj heq
    exact ⟨rfl, hsignature, hcomplements, hvalid⟩
  · rintro ⟨rfl, hsignature, hcomplements, hvalid⟩
    exact ⟨⟨⟨hsignature, hcomplements⟩, hvalid⟩, rfl⟩

section
variable {s u : State}

section
variable {copy : Copy} {i : Nat} {rows : List RowData} {first : Option ConfigRecord}

theorem State.deliverMaint_loadRow (h : u.maint = some (.loadRow copy i rows first)) (x : Row) :
    u.deliverMaint (.done x) = u.loadRowRead copy i rows first x := by
  unfold State.deliverMaint
  rw [h]

theorem State.deliverMaint_loadRow_failed (h : u.maint = some (.loadRow copy i rows first)) (m : MemFault) :
    u.deliverMaint (.failed m) =
      (u.file (unitFault m.kind .configurationUnit (copy.firstRow + i) none 0#32)).copyClassified copy none first := by
  unfold State.deliverMaint
  rw [h]
  rfl

theorem State.loadRowRead_next {x : Row} (hgood : rowGood (copy.firstRow + i) x = true) (hi : i < 15) :
    u.loadRowRead copy i rows first x =
      u.asksMaint (.loadRow copy (i + 1) (rows ++ [x.data]) first) (.read (copy.firstRow + (i + 1))) :=
  (if_pos hgood).trans (if_pos hi)

/-- A copy is classified when a row of it is BAD, and when its last row is read (R163, R164). -/
theorem State.loadRowRead_classified {x : Row} {found : Option ConfigRecord}
    (h : (rowGood (copy.firstRow + i) x = false ∧ found = none)
      ∨ (rowGood (copy.firstRow + i) x = true ∧ i = 15 ∧ found = classifyCopy (rows ++ [x.data]))) :
    u.loadRowRead copy i rows first x = u.copyClassified copy found first := by
  obtain ⟨hbad, rfl⟩ | ⟨hgood, rfl, rfl⟩ := h
  · exact if_neg (ne_true_of_eq_false hbad)
  · exact (if_pos hgood).trans (if_neg (Nat.lt_irrefl 15))

end

/-! ## The held request is taken in -/

theorem State.queueHasRoom_iff {c : ConfigRecord} (hactive : s.active = some c) :
    s.queueHasRoom = true ↔ roomUnder c.ack s.queue := by
  have hmode := State.ackMode_of_active hactive
  cases hack : c.ack with
  | posted => exact State.queueHasRoom_posted (hmode.trans hack)
  | completed => exact State.queueHasRoom_completed (hmode.trans hack)

theorem State.takeInHeld_none (h : s.held = none) : s.takeInHeld = s := by
  unfold State.takeInHeld
  rw [h]

theorem State.takeInHeld_some {r : Request} (h : s.held = some r) : s.takeInHeld = ({ s with held := none } : State).takeIn r := by
  unfold State.takeInHeld
  rw [h]

theorem State.takeInHeld_read {address : Address} {beats : Nat} (h : s.held = some (.read address beats))
    (hburst : burstAcceptable address beats = true) :
    s.takeInHeld =
      { s with
        held := none, readHeld := false
        pendingRead := some { address := address, beats := beats, taken := false } } :=
  (State.takeInHeld_some h).trans (State.takeIn_read hburst)

theorem State.acceptWrite_of_active {c : ConfigRecord} (hactive : s.active = some c) (address : Address)
    (beats : List Beat) :
    s.acceptWrite address beats =
      { s with
        queue := s.queue ++
          [{ address := address, beats := beats, number := s.nextAcceptance, mark := c.ack, state := .notStarted
             timed := c.ack == .completed }]
        nextAcceptance := s.nextAcceptance + 1#32
        frontResponse := if c.ack = .posted then some { okay := true, beats := [] } else s.frontResponse } := by
  have hmode := State.ackMode_of_active hactive
  cases hack : c.ack with
  | posted => exact State.acceptWrite_posted (hmode.trans hack) address beats
  | completed => exact State.acceptWrite_completed (hmode.trans hack) address beats

section
variable {address : Address} {beats : List Beat} {c : ConfigRecord}

theorem State.takeInHeld_write (h : s.held = some (.write address beats))
    (hburst : burstAcceptable address beats.length = true) (hactive : s.active = some c) (hroom : roomUnder c.ack s.queue) :
    s.takeInHeld =
      { s with
        held := none
        queue := s.queue ++
          [{ address := address, beats := beats, number := s.nextAcceptance, mark := c.ack, state := .notStarted
             timed := c.ack == .completed }]
        nextAcceptance := s.nextAcceptance + 1#32
        frontResponse := if c.ack = .posted then some { okay := true, beats := [] } else s.frontResponse } :=
  (State.takeInHeld_some h).trans
    ((State.takeIn_write hburst ((State.queueHasRoom_iff (s := { s with held := none }) hactive).mpr hroom)).trans
      (State.acceptWrite_of_active (s := { s with held := none }) hactive address beats))

theorem State.takeInHeld_full (h : s.held = some (.write address beats))
    (hburst : burstAcceptable address beats.length = true) (hactive : s.active = some c)
    (hfull : ¬ roomUnder c.ack s.queue) : s.takeInHeld = s := by
  have hnone : ({ s with held := none } : State).queueHasRoom = false :=
    eq_false_of_ne_true fun hroom => hfull ((State.queueHasRoom_iff (s := { s with held := none }) hactive).mp hroom)
  rw [State.takeInHeld_some h, State.takeIn_write_full hburst hnone, ← h]

end

theorem refusedResponse_eq (r : Request) : refusedResponse r = { okay := false, beats := r.refusedBeats } := by
  cases r <;> rfl

theorem State.answerRefused_eq (r : Request) : s.answerRefused r = { s with frontResponse := some (refusedResponse r) } := by
  rw [refusedResponse_eq]
  rfl

theorem State.takeInHeld_refused {r : Request} (h : s.held = some r) (hburst : burstAcceptable r.address r.length = false) :
    s.takeInHeld =
      { s.file (requestFault .alignment r.address (some (r.address.toNat / 16)) s.epochOrZero) with
        held := none, frontResponse := some (refusedResponse r) } := by
  rw [State.takeInHeld_some h, State.takeIn_refused hburst, State.answerRefused_eq, State.file_eq, State.file_eq]
  rfl

/-! ## The installation -/

/-- What acceptance makes of the held request as a configuration becomes active, with the record of that event (R77,
R114). -/
def State.acceptanceOpened (s : State) (record : Option FaultRecord) : State :=
  match record with
  | none => s.takeInHeld
  | some f =>
    match s.held with
    | none => s.file f
    | some r =>
      if burstAcceptable r.address r.length then (s.file f).takeInHeld
      else
        (({ s with held := none } : State).fileTogether f
          (requestFault .alignment r.address (some (r.address.toNat / 16)) s.epochOrZero)).answerRefused r

/-- The state that an installed configuration gives, before acceptance opens (R76, R165, R196). -/
def State.installed (s : State) (c : ConfigRecord) (copy : Copy) (degraded : Bool) : State :=
  { s with
    active := some c, staging := c, designation := some copy, alertMask := c.alertMask, maint := none
    configDegraded := degraded }

/-- The record of a degraded installation (R165). -/
def degradedRecord (degraded : Option Copy) : Option FaultRecord :=
  degraded.map fun d => unitFault .configDegraded .configurationUnit d.firstRow none 0#32

theorem State.install_eq (c : ConfigRecord) (copy : Copy) (degraded : Option Copy) :
    s.install c copy degraded =
      if c.nSlots = 0#16 then
        ((s.installed c copy degraded.isSome).acceptanceOpened (degradedRecord degraded)).endStartRunning
      else ((s.installed c copy degraded.isSome).acceptanceOpened (degradedRecord degraded)).enterScanning := by
  cases degraded <;> rfl

theorem State.acceptanceOpened_of_acceptable
    (h : ∀ r, s.held = some r → burstAcceptable r.address r.length = true) (record : Option FaultRecord) :
    s.acceptanceOpened record = (s.filed record).takeInHeld := by
  unfold State.acceptanceOpened State.filed
  cases record with
  | none => rfl
  | some f =>
    cases hheld : s.held with
    | none => exact (State.takeInHeld_none (by simpa using hheld)).symm
    | some r => exact if_pos (h r hheld)

theorem State.acceptanceOpened_together {r : Request} (h : s.held = some r)
    (hburst : burstAcceptable r.address r.length = false) (f : FaultRecord) :
    s.acceptanceOpened (some f) =
      (({ s with held := none } : State).fileTogether f
        (requestFault .alignment r.address (some (r.address.toNat / 16)) s.epochOrZero)).answerRefused r := by
  unfold State.acceptanceOpened
  rw [h]
  exact if_neg (ne_true_of_eq_false hburst)

/-- Two records that arrive together are filed in one order or the other (R192). -/
theorem State.fileTogether_filesBoth (f g : FaultRecord) : ∃ u, s.filesBoth f g u
    ∧ s.fileTogether f g = { u with freeCount := s.freeCount + 1 } := by
  unfold State.fileTogether State.filesBoth
  split
  · exact ⟨_, .inl rfl, rfl⟩
  · exact ⟨_, .inr rfl, rfl⟩

@[simp] theorem State.filed_frame (record : Option FaultRecord) :
    (s.filed record).held = s.held ∧ (s.filed record).queue = s.queue
      ∧ (s.filed record).nextAcceptance = s.nextAcceptance ∧ (s.filed record).frontResponse = s.frontResponse
      ∧ (s.filed record).active = s.active := by
  cases record <;> simp [State.filed]

/-- The held request plays no part in a filing (R192). -/
theorem State.fileTogether_withHeld (held : Option Request) (f g : FaultRecord) :
    ({ s with held := held } : State).fileTogether f g = { s.fileTogether f g with held := held } := by
  unfold State.fileTogether
  dsimp only
  split <;> (simp only [State.file_eq])

theorem State.acceptanceOpened_opens {c : ConfigRecord} (hactive : s.active = some c) (record : Option FaultRecord) :
    s.acceptanceOpens c.ack record (s.acceptanceOpened record) := by
  obtain ⟨hfiled, hqueue, hnext, hfront, hconfig⟩ := s.filed_frame record
  have hacceptable {q : Request} (hheld : s.held = some q) (hburst : burstAcceptable q.address q.length = true) :
      s.acceptanceOpened record = (s.filed record).takeInHeld :=
    State.acceptanceOpened_of_acceptable (fun r hr => by
      obtain rfl : q = r := Option.some.inj (hheld.symm.trans hr)
      exact hburst) record
  refine ⟨fun hheld => ?_, fun address beats hheld hburst => ?_,
    fun address beats hheld hburst => ⟨fun hroom => ?_, fun hfull => ?_⟩, fun r alignment hheld hburst halignment => ?_⟩
  · rw [State.acceptanceOpened_of_acceptable (fun r hr => nomatch hheld.symm.trans hr) record]
    exact State.takeInHeld_none (hfiled.trans hheld)
  · rw [hacceptable hheld hburst]
    exact State.takeInHeld_read (hfiled.trans hheld) hburst
  · rw [hacceptable hheld hburst, State.takeInHeld_write (hfiled.trans hheld) hburst (hconfig.trans hactive)
      (hqueue.symm ▸ hroom), hqueue, hnext, hfront]
  · rw [hacceptable hheld hburst]
    exact State.takeInHeld_full (hfiled.trans hheld) hburst (hconfig.trans hactive) (hqueue.symm ▸ hfull)
  · subst halignment
    cases record with
    | none => exact State.takeInHeld_refused hheld hburst
    | some f =>
      obtain ⟨u, hboth, hu⟩ := s.fileTogether_filesBoth f
        (requestFault .alignment r.address (some (r.address.toNat / 16)) s.epochOrZero)
      refine ⟨u, hboth, ?_⟩
      rw [State.acceptanceOpened_together hheld hburst, State.answerRefused_eq, State.fileTogether_withHeld, hu]

@[simp] theorem State.acceptanceOpened_active (record : Option FaultRecord) :
    (s.acceptanceOpened record).active = s.active := by
  unfold State.acceptanceOpened
  cases record with
  | none => simp
  | some f =>
    dsimp only
    split
    · simp
    · split <;> simp

theorem State.enterScanning_eq {c : ConfigRecord} (hactive : s.active = some c) :
    s.enterScanning =
      ({ s with
        journal := .scanning, readHeld := false, headHeld := false
        longOp := some
          { kind := .rollback, origin := .start, phase := .executing, skip := false, restored := 0, skipped := 0
            discarded := 0, carried := 0 } } : State).asksMaint (.anchorRead .a) (.read c.base.toNat) := by
  have hbase : c.base = s.base := by rw [State.base, hactive]; rfl
  rw [hbase]
  rfl

/-! ## The selection -/

/-- The copy that is installed, and the other one when it is INVALID (R165). -/
theorem State.selectConfig_installs {a b : Option ConfigRecord} {c : ConfigRecord} {copy : Copy} {degraded : Option Nat}
    (h : ((∃ o, a = some c ∧ b = some o ∧ o.generation.toNat ≤ c.generation.toNat) ∧ copy = .a ∧ degraded = none)
      ∨ ((∃ o, a = some o ∧ b = some c ∧ o.generation.toNat < c.generation.toNat) ∧ copy = .b ∧ degraded = none)
      ∨ (a = some c ∧ b = none ∧ copy = .a ∧ degraded = some 16)
      ∨ (a = none ∧ b = some c ∧ copy = .b ∧ degraded = some 0)) :
    ∃ d : Option Copy, s.selectConfig a b = s.install c copy d ∧ d.map Copy.firstRow = degraded := by
  obtain ⟨⟨o, rfl, rfl, hle⟩, rfl, rfl⟩ | ⟨⟨o, rfl, rfl, hlt⟩, rfl, rfl⟩ | ⟨rfl, rfl, rfl, rfl⟩ |
    ⟨rfl, rfl, rfl, rfl⟩ := h
  · exact ⟨none, if_neg (Nat.not_lt.mpr hle), rfl⟩
  · exact ⟨none, if_pos hlt, rfl⟩
  · exact ⟨some .b, rfl, rfl⟩
  · exact ⟨some .a, rfl, rfl⟩

/-- The state that UNCONFIGURED gives, before the held request and the latch are settled (R76, R165). -/
def State.unconfigured (s : State) : State :=
  { s with operating := .unconfigured, staging := ConfigRecord.zero, designation := none, maint := none }

theorem State.endStartUnconfigured_none (h : s.held = none) : s.endStartUnconfigured = s.unconfigured.settleLatch := by
  have hs : { s with held := none } = s := by rw [← h]
  rw [← hs]
  rfl

/-- A held request is answered NOT_READY, and a latched request is dropped with it (R81, R82). -/
theorem State.endStartUnconfigured_some {r : Request} (h : s.held = some r) :
    s.endStartUnconfigured =
      if s.ckptLatch = true then
        ({ s.unconfigured with held := none, frontResponse := some (refusedResponse r), ckptLatch := false } :
          State).fileTogether (requestFault .notReady r.address none 0#32) s.ckptFault
      else
        ({ s.unconfigured with held := none, frontResponse := some (refusedResponse r) } : State).file
          (requestFault .notReady r.address none 0#32) := by
  have hs : { s with held := some r } = s := by rw [← h]
  rw [refusedResponse_eq]
  exact congrArg State.endStartUnconfigured hs.symm

theorem State.endStartUnconfigured_held {r : Request} (h : s.held = some r) (hlatch : s.ckptLatch = false) :
    s.endStartUnconfigured =
      { s.unconfigured.file (requestFault .notReady r.address none 0#32) with
        held := none, frontResponse := some (refusedResponse r) } := by
  rw [State.endStartUnconfigured_some h, if_neg (ne_true_of_eq_false hlatch), State.file_eq, State.file_eq]

theorem State.endStartUnconfigured_latched {r : Request} (h : s.held = some r) (hlatch : s.ckptLatch = true) :
    s.endStartUnconfigured =
      { s.unconfigured.fileTogether (requestFault .notReady r.address none 0#32) s.ckptFault with
        held := none, frontResponse := some (refusedResponse r), ckptLatch := false } := by
  rw [State.endStartUnconfigured_some h, if_pos hlatch]
  unfold State.fileTogether
  dsimp only
  split <;> simp only [State.file_eq]

end

/-- Settles O35. -/
theorem configurationIsLoadedAndSelected : Obligations.ConfigurationIsLoadedAndSelected := by
  unfold Obligations.ConfigurationIsLoadedAndSelected
  refine ⟨fun s copy i row rows first found x hi hrow hreads => ⟨fun hgood hlt => ?_, fun hfound => ?_⟩,
    fun s copy i row rows first c left kind hrow hfails => ?_, classifyCopy_eq_some_iff,
    fun s installed a b c copy degraded hselect hinstalled => ?_, fun s t ht => ⟨fun hheld => ?_,
      fun r notReady hheld hnotReady => ⟨fun hlatch => ?_, fun hlatch => ?_⟩⟩⟩
  · rw [← Copy.firstRow_eq] at hrow
    subst hrow
    refine exec_maintReads hreads fun htask => ?_
    rw [State.deliverMaint_loadRow htask]
    exact State.loadRowRead_next hgood hlt
  · rw [← Copy.firstRow_eq] at hrow
    subst hrow
    have hexec : exec (.memoryAttemptDone none) s = .next (s.portFreed.copyClassified copy found first) :=
      exec_maintReads hreads fun htask => by
        rw [State.deliverMaint_loadRow htask, State.loadRowRead_classified hfound]
    rw [hexec]
    exact ⟨by rintro rfl; rfl, by rintro rfl; rfl⟩
  · rw [← Copy.firstRow_eq] at hrow
    subst hrow
    have hexec : exec c s = .next
        ((s.portFreed.file (unitFault kind .configurationUnit (copy.firstRow + i) none 0#32)).copyClassified copy none
          first) :=
      exec_maintFails_read hfails fun m hm htask => by rw [State.deliverMaint_loadRow_failed htask, hm]
    rw [hexec]
    exact ⟨by rintro rfl; rfl, by rintro rfl; rfl⟩
  · obtain ⟨d, hinstall, rfl⟩ := State.selectConfig_installs (s := s) hselect
    have hsame : installed = s.installed c copy d.isSome := by rw [hinstalled, Option.isSome_map]; rfl
    have hrecord : (d.map Copy.firstRow).map (fun row => unitFault .configDegraded .configurationUnit row none 0#32) =
        degradedRecord d := Option.map_map _ _ _
    subst hsame
    rw [hrecord, hinstall, State.install_eq]
    refine ⟨_, State.acceptanceOpened_opens rfl _, fun hslots => ?_, fun hslots => ?_⟩
    · rw [if_neg hslots]
      exact State.enterScanning_eq (State.acceptanceOpened_active _)
    · rw [if_pos hslots]
      exact State.endStartRunning_eq _
  · rw [ht]
    exact State.endStartUnconfigured_none hheld
  · rw [ht, hnotReady]
    exact State.endStartUnconfigured_held hheld hlatch
  · rw [ht, hnotReady]
    obtain ⟨u, hboth, hu⟩ := s.unconfigured.fileTogether_filesBoth (requestFault .notReady r.address none 0#32) s.ckptFault
    refine ⟨u, hboth, (State.endStartUnconfigured_latched hheld hlatch).trans ?_⟩
    rw [hu]
    rfl

end Sys2Proof.Machine

/-! SUPPORT. What a result on FRONT makes of the job in progress (R130, R148), and a read job from its first row to its
answer (R111, R143 to R145). -/
namespace Sys2Proof.Machine

set_option Elab.async false

section
variable {s u : State} {j : Job}

/-! ## The job of a FRONT result -/

theorem State.portFreed_job (h : s.job = some j) : s.portFreed.job = some j := by
  obtain ⟨v, hu⟩ := s.portFreed_withPort
  rw [hu]
  exact h

/-- A read of FRONT that completes: what the job makes of the row is the next state. -/
theorem exec_frontReads {row : Nat} {x : Row} {t : State} (h : s.frontReads j row x)
    (hnext : s.portFreed.job = some j → s.portFreed.deliverFront (.done x) = t) :
    exec (.memoryAttemptDone none) s = .next t := by
  rw [exec_of_frontReads h]
  exact congrArg Host.Outcome.next (hnext (State.portFreed_job h.1))

/-- A write of FRONT that completes. -/
theorem exec_frontWrites {row : Nat} {content : Row} {t : State} (h : s.frontWrites j row content)
    (hnext : (s.wrote row content).job = some j → (s.wrote row content).deliverFront (.done content) = t) :
    exec (.memoryAttemptDone none) s = .next t := by
  rw [exec_of_frontWrites h]
  exact congrArg Host.Outcome.next (hnext (State.portFreed_job (s := { s with mem := _ }) h.1))

/-- A read of FRONT that fails for good. -/
theorem exec_frontFails_read {row : Nat} {c : Instr} {left : Residue} {kind : FaultKind} {t : State}
    (h : s.frontFails j (.read row) c left kind)
    (hnext : ∀ m : MemFault, m.kind = kind → s.portFreed.job = some j → s.portFreed.deliverFront (.failed m) = t) :
    exec c s = .next t := by
  obtain ⟨m, hm, hexec⟩ := exec_of_frontFails h
  rw [hexec]
  exact congrArg Host.Outcome.next (hnext m hm (State.portFreed_job h.1))

/-- A write of FRONT that fails for good. -/
theorem exec_frontFails_write {row : Nat} {content : Row} {c : Instr} {left : Residue} {kind : FaultKind} {t : State}
    (h : s.frontFails j (.write row content) c left kind)
    (hnext : ∀ m : MemFault, m.kind = kind → (s.wroteInPart row content left).job = some j →
      (s.wroteInPart row content left).deliverFront (.failed m) = t) :
    exec c s = .next t := by
  obtain ⟨m, hm, hexec⟩ := exec_of_frontFails h
  rw [hexec]
  exact congrArg Host.Outcome.next (hnext m hm (State.portFreed_job (s := { s with mem := _ }) h.1))

section
variable (hjob : u.job = some j)
include hjob

theorem State.deliverFront_readJob {i : Nat} (hphase : j.phase = .reading i) (hread : j.request.isRead = true)
    (d : Delivery) : u.deliverFront d = u.readJobRowDone j i d := by
  unfold State.deliverFront
  rw [hjob]
  dsimp only
  rw [hphase]
  exact if_pos hread

theorem State.deliverFront_writeJob {i : Nat} (hphase : j.phase = .reading i) (hread : j.request.isRead = false)
    (d : Delivery) : u.deliverFront d = u.writeJobRowDone j i d := by
  unfold State.deliverFront
  rw [hjob]
  dsimp only
  rw [hphase]
  exact if_neg (ne_true_of_eq_false hread)

theorem State.deliverFront_appending {i slot : Nat} {sequence : Word} {step : AppendStep}
    (hphase : j.phase = .appending i slot sequence step) (d : Delivery) :
    u.deliverFront d = u.appendDone j i slot sequence step d := by
  unfold State.deliverFront
  rw [hjob]
  dsimp only
  rw [hphase]

theorem State.deliverFront_writing {i : Nat} (hphase : j.phase = .writing i) (d : Delivery) :
    u.deliverFront d = u.targetDone j i d := by
  unfold State.deliverFront
  rw [hjob]
  dsimp only
  rw [hphase]

end

/-- A row record is read next (R136, R143). -/
theorem State.issueRead_eq {k : Nat} {q : JobRow} (h : j.rows[k]? = some q) :
    u.issueRead j k = u.asksFront { j with phase := .reading k } (.read q.row) := by
  rw [← j.rowNumber_of k q h]
  rfl

/-- A row record is written next (R142). -/
theorem State.issueWrite_eq {k : Nat} {q : JobRow} (h : j.rows[k]? = some q) :
    u.issueWrite j k = u.asksFront { j with phase := .writing k } (.write q.row (j.mergedRow k)) := by
  rw [← j.rowNumber_of k q h]
  rfl

/-! ## The rows of a read job -/

section
variable {rows : List JobRow} {p : JobRow}

theorem find?_row_of_mem (hdistinct : (rows.map JobRow.row).Nodup) (hp : p ∈ rows) :
    rows.find? (fun r => r.row == p.row) = some p := by
  induction rows with
  | nil => exact absurd hp List.not_mem_nil
  | cons r rest ih =>
    obtain ⟨hnew, hrest⟩ := List.nodup_cons.mp hdistinct
    obtain rfl | hp := List.mem_cons.mp hp
    · exact List.find?_cons_of_pos (by simp)
    · have hne : r.row ≠ p.row := fun h => hnew (List.mem_map.mpr ⟨p, hp, h.symm⟩)
      rw [List.find?_cons_of_neg (by simpa using hne)]
      exact ih hrest hp

theorem deliveredBytes_good (hdistinct : (rows.map JobRow.row).Nodup) (hp : p ∈ rows) {x : Row}
    (hresult : p.result = some (.good x)) : deliveredBytes rows p.row = some x.data := by
  unfold deliveredBytes
  rw [find?_row_of_mem hdistinct hp]
  dsimp only
  rw [hresult]

theorem deliveredBytes_not_good (hdistinct : (rows.map JobRow.row).Nodup) (hp : p ∈ rows)
    (hresult : ∀ x, p.result ≠ some (.good x)) : deliveredBytes rows p.row = none := by
  unfold deliveredBytes
  rw [find?_row_of_mem hdistinct hp]
  dsimp only
  split
  · next x heq => exact absurd heq (hresult x)
  all_goals rfl

theorem deliveredBytes_other {row : Nat} (h : row ∉ rows.map JobRow.row) : deliveredBytes rows row = none := by
  have hnone : rows.find? (fun r => r.row == row) = none := by
    rw [List.find?_eq_none]
    exact fun r hr heq => h (List.mem_map.mpr ⟨r, hr, by simpa using heq⟩)
  unfold deliveredBytes
  rw [hnone]

end

theorem deliveredBytes_singleton_good {r : JobRow} {x : Row} (h : r.result = some (.good x)) :
    deliveredBytes [r] = fun row => if row = r.row then some x.data else none := by
  funext row
  by_cases hrow : row = r.row
  · rw [if_pos hrow, hrow]
    exact deliveredBytes_good (rows := [r]) (List.nodup_singleton _) List.mem_cons_self h
  · rw [if_neg hrow]
    exact deliveredBytes_other (by simpa using hrow)

theorem deliveredBytes_singleton_bad {r : JobRow} {x : Row} (h : r.result = some (.bad x)) :
    deliveredBytes [r] = fun _ => none := by
  funext row
  by_cases hrow : row = r.row
  · rw [hrow]
    exact deliveredBytes_not_good (rows := [r]) (List.nodup_singleton _) List.mem_cons_self fun _ hgood => nomatch h.symm.trans hgood
  · exact deliveredBytes_other (by simpa using hrow)

/-- The rows of a request are distinct (R94). -/
theorem rowsOf_nodup (address : Address) (beats : Nat) : (rowsOf address beats).Nodup := by
  unfold rowsOf secondRow
  split <;> simp

/-! ## The end of a read job -/

theorem State.readJobNext_ends {i : Nat} (h : nextRow JobRow.needsRead j.rows (i + 1) = none) :
    u.readJobNext j i = u.endReadJob j := by
  unfold State.readJobNext
  rw [h]

theorem State.readJobNext_reads {i k : Nat} {q : JobRow} (h : nextRow JobRow.needsRead j.rows (i + 1) = some k)
    (hq : j.rows[k]? = some q) : u.readJobNext j i = u.asksFront { j with phase := .reading k } (.read q.row) := by
  unfold State.readJobNext
  rw [h]
  exact State.issueRead_eq hq

theorem State.endReadJob_eq {address : Address} {beats : Nat} (hrequest : j.request = .read address beats) :
    u.endReadJob j =
      { u with
        pendingRead := none, readHeld := false, job := none
        frontResponse := some
          { okay := allDelivered j.rows, beats := readBeats address beats (deliveredBytes j.rows) } } := by
  unfold State.endReadJob
  rw [hrequest]
  rfl

theorem State.readJobRowDone_good {i : Nat} {r : JobRow} {x : Row} (hr : j.rows[i]? = some r)
    (hgood : rowGood r.row x = true) : u.readJobRowDone j i (.done x) = u.readJobNext (j.withResult i (.good x)) i :=
  if_pos (by rw [j.rowNumber_of i r hr]; exact hgood)

theorem State.readJobRowDone_bad {i : Nat} {r : JobRow} {x : Row} (hr : j.rows[i]? = some r)
    (hbad : rowGood r.row x = false) :
    u.readJobRowDone j i (.done x) =
      (u.file (jobFault .rowCheck j.request.address r.row none u.epochOrZero false false)).readJobNext
        (j.withResult i (.bad x)) i := by
  rw [← j.rowNumber_of i r hr]
  exact if_neg (by rw [j.rowNumber_of i r hr, hbad]; exact Bool.false_ne_true)

theorem State.readJobRowDone_failed {i : Nat} {r : JobRow} (hr : j.rows[i]? = some r) (m : MemFault) :
    u.readJobRowDone j i (.failed m) =
      (u.file (jobFault m.kind j.request.address r.row none u.epochOrZero false false)).readJobNext
        (j.withResult i .failed) i := by
  rw [← j.rowNumber_of i r hr]
  rfl

end

/-- A row of a read job read to its end, GOOD, BAD or failed: the state the job goes on from (R143, R145). -/
def State.rowRead (s : State) (j : Job) (address : Address) (r : JobRow) (c : Instr) (read : RowRead) (t : State) : Prop :=
  (∃ x, s.frontReads j r.row x ∧ c = .memoryAttemptDone none
    ∧ ((rowGood r.row x = true ∧ read = .good x ∧ t = s.portFreed)
      ∨ (rowGood r.row x = false ∧ read = .bad x
        ∧ t = s.portFreed.file (jobFault .rowCheck address r.row none s.epochOrZero false false))))
  ∨ ∃ left kind, s.frontFails j (.read r.row) c left kind ∧ read = .failed
      ∧ t = s.portFreed.file (jobFault kind address r.row none s.epochOrZero false false)

theorem exec_of_rowRead {s t : State} {j : Job} {address : Address} {beats i : Nat} {r : JobRow} {c : Instr}
    {read : RowRead} (h : s.rowRead j address r c read t) (hrequest : j.request = .read address beats)
    (hphase : j.phase = .reading i) (hr : j.rows[i]? = some r) :
    exec c s = .next (t.readJobNext (j.withResult i read) i) := by
  have hread : j.request.isRead = true := by rw [hrequest]; rfl
  have haddress : j.request.address = address := by rw [hrequest]; rfl
  have hepoch : s.portFreed.epochOrZero = s.epochOrZero := by
    obtain ⟨v, hu⟩ := s.portFreed_withPort
    rw [hu]
    rfl
  obtain ⟨x, hreads, rfl, ⟨hgood, rfl, rfl⟩ | ⟨hbad, rfl, rfl⟩⟩ | ⟨left, kind, hfails, rfl, rfl⟩ := h
  · refine exec_frontReads hreads fun hjob => ?_
    rw [State.deliverFront_readJob hjob hphase hread, State.readJobRowDone_good hr hgood]
  · refine exec_frontReads hreads fun hjob => ?_
    rw [State.deliverFront_readJob hjob hphase hread, State.readJobRowDone_bad hr hbad, haddress, hepoch]
  · refine exec_frontFails_read hfails fun m hm hjob => ?_
    rw [State.deliverFront_readJob hjob hphase hread, State.readJobRowDone_failed hr, haddress, hepoch, hm]

/-- The last row of a read job answers it (R111, R143). -/
theorem exec_of_lastRowRead {s t : State} {j : Job} {address : Address} {beats i : Nat} {r : JobRow} {c : Instr}
    {read : RowRead} {rows : List JobRow} (h : s.rowRead j address r c read t) (hrequest : j.request = .read address beats)
    (hphase : j.phase = .reading i) (hr : j.rows[i]? = some r) (hlast : j.rows.length = i + 1)
    (hrows : rows = j.rows.set i { r with result := some read }) :
    exec c s =
      .next { t with
        pendingRead := none, readHeld := false, job := none
        frontResponse := some { okay := allDelivered rows, beats := readBeats address beats (deliveredBytes rows) } } := by
  have hset : (j.withResult i read).rows = rows := (j.withResult_rows i r read hr).trans hrows.symm
  rw [exec_of_rowRead h hrequest hphase hr, State.readJobNext_ends, State.endReadJob_eq (j := j.withResult i read) hrequest,
    hset]
  rw [nextRow_eq_none_iff, hset]
  intro m q hm hq
  have hlength : m < rows.length := (List.getElem?_eq_some_iff.mp hq).1
  rw [hrows, List.length_set] at hlength
  omega

/-- Settles O31, from the read of each row and the answer at the last one. -/
theorem readIsAnsweredFromItsRow : Obligations.ReadIsAnsweredFromItsRow := by
  unfold Obligations.ReadIsAnsweredFromItsRow
  refine ⟨fun s f j address beats r x hport hrequester hop hjob hrequest hrows hneeds hphase hx => ?_,
    fun s t j address beats i r c read rows hrequest hcovers hneeds hphase hr hread hrows => ⟨fun q hq => ?_,
      fun hlast => ?_⟩⟩
  · have hreads : s.frontReads j r.row x := ⟨hjob, hx, f, hport, hrequester, hop⟩
    have hr : j.rows[0]? = some r := by rw [hrows]; rfl
    have hlast : j.rows.length = 0 + 1 := by rw [hrows]; rfl
    have hset : ∀ read, [{ r with result := some read }] = j.rows.set 0 { r with result := some read } := by
      rw [hrows]
      exact fun _ => rfl
    refine ⟨fun hgood => ?_, fun hbad => ?_⟩
    · rw [exec_of_lastRowRead (.inl ⟨x, hreads, rfl, .inl ⟨hgood, rfl, rfl⟩⟩) hrequest hphase hr hlast (hset _),
        allDelivered, deliveredBytes_singleton_good (x := x) rfl]
      simp
    · rw [exec_of_lastRowRead (.inl ⟨x, hreads, rfl, .inr ⟨hbad, rfl, rfl⟩⟩) hrequest hphase hr hlast (hset _),
        allDelivered, deliveredBytes_singleton_bad (x := x) rfl]
      rfl
  · have hset : (j.withResult i read).rows = j.rows.set i { r with result := some read } := j.withResult_rows i r read hr
    have hkept : (j.withResult i read).rows[i + 1]? = some q := by
      rw [hset, List.getElem?_set_ne (Nat.succ_ne_self i).symm]
      exact hq
    have hnext : nextRow JobRow.needsRead (j.withResult i read).rows (i + 1) = some (i + 1) := by
      rw [nextRow_eq_some_iff]
      exact ⟨le_rfl, ⟨q, hkept, hneeds q (List.mem_of_getElem? hq)⟩, fun m _ hm hlt => absurd hlt (Nat.not_lt.mpr hm)⟩
    rw [exec_of_rowRead hread hrequest hphase hr, State.readJobNext_reads hnext hkept, hrows, ← hset]
    rfl
  · have hsame : rows.map JobRow.row = rowsOf address beats := by
      rw [← hcovers, hrows, List.map_set]
      exact List.ext_getElem? fun m => by
        by_cases hm : i = m
        · subst hm
          obtain ⟨hi, rfl⟩ := List.getElem?_eq_some_iff.mp hr
          simp [hi]
        · simp [hm]
    have hdistinct : (rows.map JobRow.row).Nodup := hsame ▸ rowsOf_nodup address beats
    refine ⟨deliveredBytes rows, fun p hp => ?_, fun row hrow => deliveredBytes_other (hsame ▸ hrow),
      exec_of_lastRowRead hread hrequest hphase hr hlast hrows⟩
    rcases hresult : p.result with _ | (y | y | _)
    · exact deliveredBytes_not_good hdistinct hp fun x h => nomatch hresult.symm.trans h
    · exact deliveredBytes_good hdistinct hp hresult
    · exact deliveredBytes_not_good hdistinct hp fun x h => nomatch hresult.symm.trans h
    · exact deliveredBytes_not_good hdistinct hp fun x h => nomatch hresult.symm.trans h

end Sys2Proof.Machine

/-! SUPPORT. A write job from its first read to its end (R107, R136, R137, R141, R142, R144, R145). -/
namespace Sys2Proof.Machine

set_option Elab.async false

section
variable {s u : State} {j : Job}

/-! ## The rows as read and as written -/

section
variable {k : Nat} {q : JobRow} (hq : j.rows[k]? = some q)
include hq

theorem Job.rowAsRead_of_good {x : Row} (hresult : q.result = some (.good x)) :
    j.rowAsRead k = x ∧ j.imageBad k = false := by
  unfold Job.rowAsRead Job.imageBad
  rw [hq, Option.bind_some, hresult]
  exact ⟨rfl, rfl⟩

theorem Job.rowAsRead_of_bad {x : Row} (hresult : q.result = some (.bad x)) :
    j.rowAsRead k = x ∧ j.imageBad k = true := by
  unfold Job.rowAsRead Job.imageBad
  rw [hq, Option.bind_some, hresult]
  exact ⟨rfl, rfl⟩

theorem Job.mergedRow_of : j.mergedRow k = freshRow q.row (mergeBytes (j.rowAsRead k).data q.data q.enables) := by
  unfold Job.mergedRow
  rw [hq]

/-- A FULL row is written whole (R141). -/
theorem Job.mergedRow_full (hfull : q.enables = 0xFFFF#16) : j.mergedRow k = freshRow q.row q.data := by
  rw [Job.mergedRow_of hq, hfull, mergeBytes_full]

theorem Job.withResult_eq (read : RowRead) :
    j.withResult k read = { j with rows := j.rows.set k { q with result := some read } } := by
  rw [← j.withResult_rows k q read hq]
  rfl

end

/-- A search that a read's result does not concern finds the same row record after the read. -/
theorem nextRow_withResult (p : JobRow → Bool) {i k : Nat} {r : JobRow} {read : RowRead} (hr : j.rows[k]? = some r)
    (h : p { r with result := some read } = p r) : nextRow p (j.withResult k read).rows i = nextRow p j.rows i := by
  rw [j.withResult_rows k r read hr]
  exact nextRow_set p j.rows i k r _ hr h

/-- A row of the job keeps its number and its class through a read (R136). -/
theorem Job.withResult_row {i k : Nat} {r q : JobRow} {read : RowRead} (hr : j.rows[i]? = some r)
    (hq : j.rows[k]? = some q) : ∃ q', (j.withResult i read).rows[k]? = some q' ∧ q'.row = q.row := by
  rw [j.withResult_rows i r read hr]
  obtain ⟨hi, rfl⟩ := List.getElem?_eq_some_iff.mp hr
  by_cases hk : i = k
  · subst hk
    obtain ⟨_, rfl⟩ := List.getElem?_eq_some_iff.mp hq
    exact ⟨{ j.rows[i] with result := some read }, by simp [hi], rfl⟩
  · exact ⟨q, by simpa [hk] using hq, rfl⟩

/-! ## The reads -/

section
variable {i : Nat} {r : JobRow} (hr : j.rows[i]? = some r)
include hr

theorem State.writeJobRowDone_kept {x : Row} {read : RowRead}
    (h : (rowGood r.row x = true ∧ read = .good x) ∨ (rowGood r.row x = false ∧ r.cls ≠ .part ∧ read = .bad x)) :
    u.writeJobRowDone j i (.done x) = u.writeJobNext (j.withResult i read) i := by
  obtain ⟨hgood, rfl⟩ | ⟨hbad, hcls, rfl⟩ := h
  · exact if_pos (by rw [j.rowNumber_of i r hr]; exact hgood)
  · refine (if_neg (by rw [j.rowNumber_of i r hr, hbad]; exact Bool.false_ne_true)).trans (if_neg ?_)
    rw [hr]
    exact fun h => hcls (Option.some.inj h)

theorem State.writeJobRowDone_bad {x : Row} (hbad : rowGood r.row x = false) (hcls : r.cls = .part) :
    u.writeJobRowDone j i (.done x) = u.refuseWriteJob j .rowCheck r.row none false := by
  rw [← j.rowNumber_of i r hr]
  refine (if_neg (by rw [j.rowNumber_of i r hr, hbad]; exact Bool.false_ne_true)).trans (if_pos ?_)
  rw [hr, ← hcls]
  rfl

theorem State.writeJobRowDone_failed (m : MemFault) :
    u.writeJobRowDone j i (.failed m) = u.refuseWriteJob j m.kind r.row none false := by
  rw [← j.rowNumber_of i r hr]
  rfl

end

theorem State.writeJobNext_reads {i k : Nat} {q : JobRow} (h : nextRow JobRow.needsRead j.rows (i + 1) = some k)
    (hq : j.rows[k]? = some q) : u.writeJobNext j i = u.asksFront { j with phase := .reading k } (.read q.row) := by
  unfold State.writeJobNext
  rw [h]
  exact State.issueRead_eq hq

theorem State.writeJobNext_ends {i : Nat} (h : nextRow JobRow.needsRead j.rows (i + 1) = none) :
    u.writeJobNext j i = u.afterReads j := by
  unfold State.writeJobNext
  rw [h]

/-! ## After the reads -/

/-- The second freeze check refuses the job of a region frozen by now (R107). -/
theorem State.afterReads_frozen (h : u.freeze[j.region] = true) {e : Entry} {rest : List Entry}
    (hqueue : u.queue = e :: rest) :
    u.afterReads j =
      (u.file (jobFault .writeProtected j.request.address (j.request.address.toNat / 16) none u.epochOrZero
        (j.mark == some .posted) false)).writeJobEnded e rest false :=
  (if_pos h).trans ((State.refuseWriteJob_eq { u with job := some j } j _ _ _ _ e rest hqueue).trans
    (State.file_withJob_ended u (some j) _ e rest false))

theorem State.afterReads_asks (h : u.freeze[j.region] = false) :
    u.afterReads j = ({ u with job := some j } : State).requestSpace j :=
  if_neg (ne_true_of_eq_false h)

theorem State.requestSpace_none (h : nextRow JobRow.needsRecord j.rows 0 = none) : u.requestSpace j = u.startWriting j := by
  unfold State.requestSpace
  rw [h]

theorem State.startWriting_writes {k : Nat} {q : JobRow} (h : nextRow JobRow.touched j.rows 0 = some k)
    (hq : j.rows[k]? = some q) :
    u.startWriting j = u.asksFront { j with phase := .writing k } (.write q.row (j.mergedRow k)) := by
  unfold State.startWriting
  rw [h]
  exact State.issueWrite_eq hq

/-- A job without an enabled byte ends with success (R134, R142). -/
theorem State.startWriting_ends (h : nextRow JobRow.touched j.rows 0 = none) {e : Entry} {rest : List Entry}
    (hqueue : u.queue = e :: rest) : u.startWriting j = u.writeJobEnded e rest true := by
  unfold State.startWriting
  rw [h]
  exact State.endWriteJob_eq { u with job := some j } e rest true hqueue

/-! ## The target writes -/

theorem State.targetDone_next {i k : Nat} {q : JobRow} (h : nextRow JobRow.touched j.rows (i + 1) = some k)
    (hq : j.rows[k]? = some q) (x : Row) :
    u.targetDone j i (.done x) = u.asksFront { j with phase := .writing k } (.write q.row (j.mergedRow k)) := by
  unfold State.targetDone
  dsimp only
  rw [h]
  exact State.issueWrite_eq hq

theorem State.targetDone_ends {i : Nat} (h : nextRow JobRow.touched j.rows (i + 1) = none) {e : Entry}
    {rest : List Entry} (hqueue : u.queue = e :: rest) (x : Row) :
    u.targetDone j i (.done x) = u.writeJobEnded e rest true := by
  unfold State.targetDone
  dsimp only
  rw [h]
  exact State.endWriteJob_eq u e rest true hqueue

/-- PARTIAL_DONE says that an earlier target row was written (R142). -/
theorem anyTouched_take_iff (rows : List JobRow) (i : Nat) :
    (rows.take i).any JobRow.touched = true ↔ ∃ m p, m < i ∧ rows[m]? = some p ∧ p.cls ≠ .untouched := by
  rw [List.any_eq_true]
  constructor
  · rintro ⟨p, hp, htouched⟩
    obtain ⟨m, hm⟩ := List.getElem?_of_mem hp
    rw [List.getElem?_take] at hm
    split at hm
    · next hlt => exact ⟨m, p, hlt, hm, by simpa [JobRow.touched] using htouched⟩
    · exact nomatch hm
  · rintro ⟨m, p, hlt, hm, hcls⟩
    refine ⟨p, List.mem_of_getElem? (i := m) ?_, by simpa [JobRow.touched] using hcls⟩
    rw [List.getElem?_take, if_pos hlt]
    exact hm

theorem State.targetDone_failed {i : Nat} {r : JobRow} (hr : j.rows[i]? = some r) (m : MemFault) {partialDone : Bool}
    (h : partialDone = true ↔ ∃ m p, m < i ∧ j.rows[m]? = some p ∧ p.cls ≠ .untouched) :
    u.targetDone j i (.failed m) = u.refuseWriteJob j m.kind r.row none partialDone := by
  have hany : (j.rows.take i).any JobRow.touched = partialDone :=
    Bool.eq_iff_iff.mpr ((anyTouched_take_iff j.rows i).trans h.symm)
  rw [← j.rowNumber_of i r hr, ← hany]
  rfl

end

/-- Settles O32, each clause at its stage of the job. -/
theorem writeJobsGoThroughTheirStages : Obligations.WriteJobsGoThroughTheirStages := by
  unfold Obligations.WriteJobsGoThroughTheirStages
  refine ⟨fun p rows i => ⟨fun k => nextRow_eq_some_iff p rows i k, nextRow_eq_none_iff p rows i⟩,
    fun j k q hq => ⟨fun x hresult => Job.rowAsRead_of_good hq hresult, fun x hresult => Job.rowAsRead_of_bad hq hresult,
      Job.mergedRow_of hq, Job.mergedRow_full hq⟩,
    fun s j j' i r x read e rest hwrite hphase hr hreads hqueue => ⟨fun hbad hcls => ?_, fun hkept hj' => ?_⟩,
    fun s j i r c left kind e rest hwrite hphase hr hfails hqueue => ?_,
    fun s j i r content e rest hphase hr hwrites hqueue => ⟨fun k q hnext hq => ?_, fun hnone => ?_⟩,
    fun s j i r content c left kind e rest partialDone hphase hr hfails hqueue hpartial => ?_, fun s => ⟨rfl, rfl⟩⟩
  · refine exec_frontReads hreads fun hjob => ?_
    obtain ⟨v, hu⟩ := s.portFreed_withPort
    rw [State.deliverFront_writeJob hjob hphase hwrite, State.writeJobRowDone_bad hr hbad hcls, hu]
    exact State.refuseWriteJob_eq (s.withPort v) j _ _ _ _ e rest hqueue
  · have hresult : j.withResult i read = j' := (Job.withResult_eq hr read).trans hj'.symm
    have hsame (p : JobRow → Bool) (n : Nat) (h : p { r with result := some read } = p r) :
        nextRow p j'.rows n = nextRow p j.rows n := by rw [← hresult]; exact nextRow_withResult p hr h
    have hkeeps {k : Nat} {q : JobRow} (hq : j.rows[k]? = some q) : ∃ q', j'.rows[k]? = some q' ∧ q'.row = q.row := by
      rw [← hresult]
      exact Job.withResult_row hr hq
    have hexec : exec (.memoryAttemptDone none) s = .next (s.portFreed.writeJobNext j' i) :=
      exec_frontReads hreads fun hjob => by
        rw [State.deliverFront_writeJob hjob hphase hwrite, State.writeJobRowDone_kept hr hkept, hresult]
    have hafter (hnone : nextRow JobRow.needsRead j.rows (i + 1) = none) :
        exec (.memoryAttemptDone none) s = .next (s.portFreed.afterReads j') := by
      rw [hexec, State.writeJobNext_ends ((hsame _ _ rfl).trans hnone)]
    obtain ⟨v, hu⟩ := s.portFreed_withPort
    refine ⟨fun k q hnext hq => ?_, fun hnone => ⟨fun hfrozen => ?_, fun hclear => ⟨fun hneeds => ?_,
      fun hneeds k q hnext hq => ?_⟩⟩⟩
    · obtain ⟨q', hq', hrow⟩ := hkeeps hq
      rw [hexec, State.writeJobNext_reads ((hsame _ _ rfl).trans hnext) hq', hrow]
    · rw [hafter hnone, hu, hj']
      exact congrArg Host.Outcome.next (State.afterReads_frozen (u := s.withPort v)
        (j := { j with rows := j.rows.set i { r with result := some read } }) hfrozen hqueue)
    · rw [hafter hnone, hu]
      exact congrArg Host.Outcome.next (State.afterReads_asks (u := s.withPort v) (by rw [hj']; exact hclear))
    · obtain ⟨q', hq', hrow⟩ := hkeeps hq
      have hspace : nextRow JobRow.needsRecord j'.rows 0 = none :=
        (hsame _ _ rfl).trans ((nextRow_eq_none_iff _ _ _).mpr fun m p _ hp => hneeds p (List.mem_of_getElem? hp))
      rw [hafter hnone, hu, ← hrow, State.afterReads_asks (u := s.withPort v) (by rw [hj']; exact hclear),
        State.requestSpace_none hspace, State.startWriting_writes ((hsame _ _ rfl).trans hnext) hq']
      rfl
  · refine exec_frontFails_read hfails fun m hm hjob => ?_
    obtain ⟨v, hu⟩ := s.portFreed_withPort
    rw [State.deliverFront_writeJob hjob hphase hwrite, State.writeJobRowDone_failed hr, hm, hu]
    exact State.refuseWriteJob_eq (s.withPort v) j _ _ _ _ e rest hqueue
  · refine exec_frontWrites hwrites fun hjob => ?_
    rw [State.deliverFront_writing hjob hphase, State.targetDone_next hnext hq]
  · refine exec_frontWrites hwrites fun hjob => ?_
    obtain ⟨v, hu⟩ := s.wrote_withPort r.row content
    rw [State.deliverFront_writing hjob hphase, hu]
    exact State.targetDone_ends (u := s.withPort v) hnone hqueue content
  · refine exec_frontFails_write hfails fun m hm hjob => ?_
    obtain ⟨v, hu⟩ := s.wroteInPart_withPort r.row content left
    rw [State.deliverFront_writing hjob hphase, State.targetDone_failed hr m hpartial, hm, hu]
    exact State.refuseWriteJob_eq (s.withPort v) j _ _ _ _ e rest hqueue

end Sys2Proof.Machine

/-! SUPPORT. An append from its begin to its end, and its failure (R16, R17, R22, R24, R140). -/
namespace Sys2Proof.Machine

set_option Elab.async false

section
variable {s u : State} {j : Job}

/-! ## An append begins -/

/-- The state in which an append's sequence number is consumed (R16). -/
theorem State.consumeSequence_eq :
    s.consumeSequence =
      if s.nextSequence = 0xFFFFFFFF#32 then { s with exhausted := true }
      else { s with nextSequence := s.nextSequence + 1#32 } := rfl

theorem State.consumeSequence_base : s.consumeSequence.base = s.base := by
  unfold State.consumeSequence
  split <;> rfl

theorem State.issueAppend_clear (i slot : Nat) (sequence : Word) :
    u.issueAppend j i slot sequence .headerClear =
      u.asksFront { j with phase := .appending i slot sequence .headerClear }
        (.write (u.base.toNat + 2 + 2 * slot) (freshRow (u.base.toNat + 2 + 2 * slot) 0#128)) := rfl

theorem State.issueAppend_image (i slot : Nat) (sequence : Word) :
    u.issueAppend j i slot sequence .imageWrite =
      u.asksFront { j with phase := .appending i slot sequence .imageWrite }
        (.write (u.base.toNat + 3 + 2 * slot) (freshRow (u.base.toNat + 3 + 2 * slot) (j.rowAsRead i).data)) := rfl

theorem State.startAppend_clears (h : s.slots.length < s.headerMark) (i : Nat) :
    s.startAppend j i =
      s.consumeSequence.asksFront { j with phase := .appending i s.slots.length s.nextSequence .headerClear }
        (.write (s.base.toNat + 2 + 2 * s.slots.length) (freshRow (s.base.toNat + 2 + 2 * s.slots.length) 0#128)) := by
  rw [← State.consumeSequence_base, ← State.issueAppend_clear]
  exact congrArg (s.consumeSequence.issueAppend j i s.tail s.nextSequence) (if_pos h)

theorem State.startAppend_images (h : s.headerMark ≤ s.slots.length) (i : Nat) :
    s.startAppend j i =
      s.consumeSequence.asksFront { j with phase := .appending i s.slots.length s.nextSequence .imageWrite }
        (.write (s.base.toNat + 3 + 2 * s.slots.length)
          (freshRow (s.base.toNat + 3 + 2 * s.slots.length) (j.rowAsRead i).data)) := by
  rw [← State.consumeSequence_base, ← State.issueAppend_image]
  exact congrArg (s.consumeSequence.issueAppend j i s.tail s.nextSequence) (if_neg (Nat.not_lt.mpr h))

/-! ## An append goes on -/

/-- The record has joined the table (R22). -/
def State.recorded (u : State) (j : Job) (i : Nat) (sequence : Word) : State :=
  u.addRecord (j.rowNumber i) (j.rowAsRead i).side { imageBad := j.imageBad i, sequence := sequence }

theorem State.appendDone_next {i k slot : Nat} {sequence : Word} (h : nextRow JobRow.needsRecord j.rows (i + 1) = some k)
    (x : Row) :
    u.appendDone j i slot sequence .headerWrite (.done x) = (u.recorded j i sequence).startAppend j k := by
  unfold State.appendDone
  dsimp only
  rw [h]
  rfl

theorem State.appendDone_last {i slot : Nat} {sequence : Word} (h : nextRow JobRow.needsRecord j.rows (i + 1) = none)
    (x : Row) :
    u.appendDone j i slot sequence .headerWrite (.done x) = (u.recorded j i sequence).startWriting j := by
  unfold State.appendDone
  dsimp only
  rw [h]
  rfl

/-- What a completed append leaves of the journal, whatever its job does next (R22). -/
theorem State.appendDone_tables (i slot : Nat) (sequence : Word) (x : Row) :
    (u.appendDone j i slot sequence .headerWrite (.done x)).slots = (u.recorded j i sequence).slots
      ∧ (u.appendDone j i slot sequence .headerWrite (.done x)).slotHeaders = (u.recorded j i sequence).slotHeaders
      ∧ (u.appendDone j i slot sequence .headerWrite (.done x)).index = (u.recorded j i sequence).index
      ∧ (u.appendDone j i slot sequence .headerWrite (.done x)).stack = (u.recorded j i sequence).stack
      ∧ (u.appendDone j i slot sequence .headerWrite (.done x)).epoch = (u.recorded j i sequence).epoch
      ∧ (nextRow JobRow.needsRecord j.rows (i + 1) = none →
          (u.appendDone j i slot sequence .headerWrite (.done x)).nextSequence =
            (u.recorded j i sequence).nextSequence) := by
  cases h : nextRow JobRow.needsRecord j.rows (i + 1) with
  | some k =>
    rw [State.appendDone_next h]
    simp
  | none =>
    rw [State.appendDone_last h]
    simp

/-! ## An append fails -/

/-- The failure of an append leaves the tables, and the sequence number consumed (R24). -/
theorem State.refuseWriteJob_tables (kind : FaultKind) (row : Nat) (slot : Option Nat) (partialDone : Bool) :
    (u.refuseWriteJob j kind row slot partialDone).slots = u.slots
      ∧ (u.refuseWriteJob j kind row slot partialDone).slotHeaders = u.slotHeaders
      ∧ (u.refuseWriteJob j kind row slot partialDone).index = u.index
      ∧ (u.refuseWriteJob j kind row slot partialDone).nextSequence = u.nextSequence
      ∧ (u.refuseWriteJob j kind row slot partialDone).headerMark = u.headerMark
      ∧ (u.refuseWriteJob j kind row slot partialDone).job = none
      ∧ (u.refuseWriteJob j kind row slot partialDone).log =
          (u.file (u.rowFault kind j.request.address row slot (j.mark == some .posted) partialDone)).log := by
  refine ⟨by simp, by simp, by simp, by simp, by simp, ?_, ?_⟩
  · simp [State.refuseWriteJob, State.endWriteJob]
  · simp [State.refuseWriteJob]

end

/-- Settles O33, each step of an append by its own equation. -/
theorem appendStepsInOrder : Obligations.AppendStepsInOrder := by
  unfold Obligations.AppendStepsInOrder
  refine ⟨fun s t j i ht => ⟨fun h => ?_, fun h => ?_⟩,
    fun s f j i slot row content sequence step hport hrequester hop hjob hphase => ?_,
    fun s t j i slot row content sequence hwrites hphase ht => ?_,
    fun s op c left kind j i slot sequence step hfails hphase => ?_⟩
  · rw [ht, ← State.consumeSequence_eq]
    exact State.startAppend_clears h i
  · rw [ht, ← State.consumeSequence_eq]
    exact State.startAppend_images h i
  · have hwrites : s.frontWrites j row content := ⟨hjob, f, hport, hrequester, hop⟩
    have hexec : exec (.memoryAttemptDone none) s =
        .next ((s.wrote row content).appendDone j i slot sequence step (.done content)) :=
      exec_frontWrites hwrites fun hjob' => State.deliverFront_appending hjob' hphase _
    obtain ⟨v, hu⟩ := s.wrote_withPort row content
    have hu' : ({ s with mem := s.mem.write row content } : State).portFreed = s.withPort v := hu
    rw [hexec, hu, hu']
    refine ⟨fun hstep => ?_, fun hstep => ?_, fun hstep => ?_⟩
    · subst hstep
      rfl
    · subst hstep
      rfl
    · subst hstep
      obtain ⟨hslots, hheaders, hindex, hstack, hepoch, hsequence⟩ :=
        (s.withPort v).appendDone_tables (j := j) i slot sequence content
      exact ⟨_, rfl, hslots, hheaders, hindex, hstack, hepoch, hsequence⟩
  · have hexec : exec (.memoryAttemptDone none) s =
        .next ((s.wrote row content).appendDone j i slot sequence .headerWrite (.done content)) :=
      exec_frontWrites hwrites fun hjob => State.deliverFront_appending hjob hphase _
    have hrecorded : t = (s.wrote row content).recorded j i sequence := by
      obtain ⟨v, hu⟩ := s.wrote_withPort row content
      rw [ht, hu]
      rfl
    rw [hexec, hrecorded]
    refine ⟨fun k hnext => ?_, fun k q hnone hnext hq => ?_⟩
    · rw [State.appendDone_next hnext]
    · rw [State.appendDone_last hnone, State.startWriting_writes hnext hq]
  · obtain ⟨v, hexec, hu⟩ : ∃ v, exec c s =
          .next ((s.withPort v).refuseWriteJob j kind (j.rowNumber i) (some slot) false)
        ∧ (match (generalizing := false) op with
          | .read _ => s.portFreed
          | .write row content => s.wroteInPart row content left) = s.withPort v := by
      cases op with
      | read row =>
        obtain ⟨v, hu⟩ := s.portFreed_withPort
        refine ⟨v, exec_frontFails_read hfails fun m hm hjob => ?_, hu⟩
        rw [State.deliverFront_appending hjob hphase, hu, ← hm]
        rfl
      | write row content =>
        obtain ⟨v, hu⟩ := s.wroteInPart_withPort row content left
        refine ⟨v, exec_frontFails_write hfails fun m hm hjob => ?_, hu⟩
        rw [State.deliverFront_appending hjob hphase, hu, ← hm]
        rfl
    rw [hexec]
    refine ⟨fun t e rest hqueue ht => ?_, _, rfl, ?_⟩
    · rw [ht.trans hu]
      exact congrArg Host.Outcome.next (State.refuseWriteJob_eq (s.withPort v) j _ _ _ _ e rest hqueue)
    · obtain ⟨hslots, hheaders, hindex, hsequence, hmark, hjob, hlog⟩ :=
        (s.withPort v).refuseWriteJob_tables (j := j) kind (j.rowNumber i) (some slot) false
      refine ⟨hslots, hheaders, hindex, hsequence, hmark, hjob, hlog.trans ?_⟩
      rw [State.file_eq, State.file_eq]
      rfl

end Sys2Proof.Machine

/-! SUPPORT. The candidates of the Row Engine (R120, R131, R132): what JOB_TAKE examines, and the candidates that it
holds or refuses. -/
namespace Sys2Proof.Machine

set_option Elab.async false

section
variable {s : State}

/-! ## What is offered and examined -/

theorem exec_jobTake (hreset : s.inReset = false) (hjob : s.job = none) (hdue : s.activationDue = false) :
    exec .jobTake s = .next s.examine :=
  congrArg Host.Outcome.next (if_pos (by simp [hreset, hjob, hdue]))

/-- A pending read behind no write of one of its rows is eligible (R120). -/
theorem State.readEligible_of {p : PendingRead}
    (h : ∀ e ∈ s.queue, ∀ row ∈ rowsOf p.address p.beats, row ∉ rowsOf e.address e.beats.length) :
    s.readEligible p = true := by
  refine List.all_eq_true.mpr fun e he => List.all_eq_true.mpr fun row hrow => ?_
  have hnot : e.rows.contains row = false := by
    rw [Bool.eq_false_iff]
    exact fun hc => h e he row hrow (List.contains_iff_mem.mp hc)
  rw [hnot]
  rfl

theorem State.offeredRead_some {p : PendingRead} (hpending : s.pendingRead = some p) (htaken : p.taken = false)
    (hheld : s.readHeld = false)
    (h : ∀ e ∈ s.queue, ∀ row ∈ rowsOf p.address p.beats, row ∉ rowsOf e.address e.beats.length) :
    s.offeredRead = some p := by
  unfold State.offeredRead
  rw [hpending]
  exact if_pos (by simp [State.readEligible_of h, htaken, hheld])

theorem State.offeredHead_some {e : Entry} {rest : List Entry} (hqueue : s.queue = e :: rest)
    (hstate : e.state = .notStarted) (hheld : s.headHeld = false) : s.offeredHead = some e := by
  unfold State.offeredHead
  rw [hqueue]
  exact if_pos (by simp [hstate, hheld])

theorem State.examineOfferedHead_some {e : Entry} (h : s.offeredHead = some e) : s.examineOfferedHead = s.examineHead e := by
  unfold State.examineOfferedHead
  rw [h]

theorem State.examineOfferedHead_none (h : s.offeredHead = none) : s.examineOfferedHead = s := by
  unfold State.examineOfferedHead
  rw [h]

theorem State.examine_noRead (h : s.offeredRead = none) : s.examine = s.examineOfferedHead := by
  unfold State.examine
  rw [h]

/-- A head that is offered, with no read offered, is examined (R131). -/
theorem State.examine_head
    (hread : ∀ p, s.pendingRead = some p → p.taken = true ∨ s.readHeld = true
      ∨ ∃ x ∈ s.queue, ∃ row ∈ rowsOf p.address p.beats, row ∈ rowsOf x.address x.beats.length)
    {e : Entry} {rest : List Entry} (hqueue : s.queue = e :: rest) (hstate : e.state = .notStarted)
    (hheld : s.headHeld = false) : s.examine = s.examineHead e := by
  rw [State.examine_noRead (State.offeredRead_none hread),
    State.examineOfferedHead_some (State.offeredHead_some hqueue hstate hheld)]

theorem State.examine_read {p : PendingRead} (h : s.offeredRead = some p)
    (hverdict : s.classify (.read p.address p.beats) false ≠ .hold) : s.examine = s.examineRead p := by
  unfold State.examine
  rw [h]
  exact if_neg hverdict

/-- A read that is held is marked, and the head is examined as if it had been marked before (R131). -/
theorem State.examine_read_held {p : PendingRead} (h : s.offeredRead = some p)
    (hverdict : s.classify (.read p.address p.beats) false = .hold) :
    s.examine = ({ s with readHeld := true } : State).examineOfferedHead := by
  have hmarked : s.examineRead p = { s with readHeld := true } := by
    unfold State.examineRead
    dsimp only
    rw [hverdict]
  unfold State.examine
  rw [h]
  exact (if_pos hverdict).trans (congrArg State.examineOfferedHead hmarked)

/-! ## What becomes of a candidate -/

theorem State.examineHead_held {e : Entry} (h : s.classify (.write e.address e.beats) (s.ahead e) = .hold) :
    s.examineHead e = { s with headHeld := true } := by
  unfold State.examineHead
  rw [show e.request = .write e.address e.beats from rfl, h]

theorem State.takeHead_eq {e : Entry} {rest : List Entry} (hqueue : s.queue = e :: rest) :
    s.takeHead = { s with queue := { e with state := .taken, timed := false } :: rest } := by
  unfold State.takeHead State.markHead
  rw [hqueue]

theorem State.examineHead_taken {e : Entry} {i : Fin 16}
    (h : s.classify (.write e.address e.beats) (s.ahead e) = .proceed i) :
    s.examineHead e = s.takeHead.startWriteJob (s.writeJob e i) := by
  unfold State.examineHead
  rw [show e.request = .write e.address e.beats from rfl, h]

theorem State.examineHead_refused {e : Entry} {kind : FaultKind} {row : Nat}
    (h : s.classify (.write e.address e.beats) (s.ahead e) = .refuse kind row) {rest : List Entry}
    (hqueue : s.queue = e :: rest) (hheld : s.headHeld = false) (hjob : s.job = none) :
    s.examineHead e =
      ({ s.file (jobFault kind e.address row none s.epochOrZero (e.mark == .posted) false) with
        queue := rest
        frontResponse := if e.mark = AckMode.posted then s.frontResponse else some { okay := false, beats := [] } } :
        State).acceptHeldWrite.decideIfDue := by
  have hexamine : s.examineHead e =
      (s.takeHead.file (jobFault kind e.address row none s.epochOrZero (e.mark == .posted) false)).endWriteJob false := by
    unfold State.examineHead
    rw [show e.request = .write e.address e.beats from rfl, h]
    rfl
  have hs : { s with headHeld := false, job := none } = s := by rw [← hheld, ← hjob]
  rw [hexamine, State.takeHead_eq hqueue, State.file_eq, State.file_eq, ← hs]
  exact State.endWriteJob_eq _ { e with state := .taken, timed := false } rest false rfl

theorem State.examineRead_refused {p : PendingRead} {kind : FaultKind} {row : Nat}
    (h : s.classify (.read p.address p.beats) false = .refuse kind row) (hheld : s.readHeld = false) :
    s.examineRead p =
      { s.file (jobFault kind p.address row none s.epochOrZero false false) with
        pendingRead := none
        frontResponse := some { okay := false, beats := List.replicate p.beats 0#32 } } := by
  have hs : { s with readHeld := false } = s := by rw [← hheld]
  have hexamine : s.examineRead p =
      { (s.file (jobFault kind p.address row none s.epochOrZero false false)).answerRefused (.read p.address p.beats) with
        pendingRead := none, readHeld := false } := by
    unfold State.examineRead
    dsimp only
    rw [h]
    rfl
  rw [hexamine, State.file_eq, ← hs]
  rfl

end

/-- Settles O30. -/
theorem candidatesAreHeldOrRefused : Obligations.CandidatesAreHeldOrRefused := by
  unfold Obligations.CandidatesAreHeldOrRefused
  refine ⟨fun s address beats hreset hjob hdue hpending hheld heligible hverdict => ?_,
    fun s e rest hreset hjob hdue hread hqueue hstate hheld hverdict => ?_,
    fun s kind row hreset hjob hdue => ⟨fun e rest hread hqueue hstate hheld hverdict => ?_,
      fun address beats hpending hheld heligible hverdict => ?_⟩⟩
  · have hoffered := State.offeredRead_some hpending rfl hheld heligible
    have hexamine := State.examine_read_held hoffered hverdict
    rw [exec_jobTake hreset hjob hdue, hexamine]
    refine ⟨?_, fun hhead => ?_, fun e he hstate hhead hhold => ?_⟩
    · have hmarked : ({ s with readHeld := true } : State).offeredRead = none :=
        State.offeredRead_none fun p _ => .inr (.inl rfl)
      rw [exec_jobTake (s := { s with readHeld := true }) hreset hjob hdue, State.examine_noRead hmarked]
    · exact congrArg Host.Outcome.next (State.examineOfferedHead_none (s := { s with readHeld := true })
        (State.offeredHead_none hhead))
    · obtain ⟨rest, hqueue⟩ := List.head?_eq_some_iff.mp he
      rw [State.examineOfferedHead_some (s := { s with readHeld := true }) (State.offeredHead_some hqueue hstate hhead)]
      exact congrArg Host.Outcome.next (State.examineHead_held (s := { s with readHeld := true }) hhold)
  · rw [exec_jobTake hreset hjob hdue, State.examine_head hread hqueue hstate hheld, State.examineHead_held hverdict]
  · rw [exec_jobTake hreset hjob hdue, State.examine_head hread hqueue hstate hheld,
      State.examineHead_refused hverdict hqueue hheld hjob]
    rfl
  · have hoffered := State.offeredRead_some hpending rfl hheld heligible
    rw [exec_jobTake hreset hjob hdue, State.examine_read hoffered (fun h => nomatch hverdict.symm.trans h),
      State.examineRead_refused hverdict hheld]
    rfl

end Sys2Proof.Machine

/-! SUPPORT. JOB_TAKE of a candidate that goes ahead (R131 to R137, R142): the job that it becomes and its first row
operation. -/
namespace Sys2Proof.Machine

set_option Elab.async false

section
variable {s : State}

/-- A write that goes ahead is not of a frozen region (R103). -/
theorem State.freeze_of_proceeds {address : Address} {beats : List Beat} {ahead : Bool} {i : Fin 16}
    (h : s.classify (.write address beats) ahead = .proceed i) : s.freeze[i] = false := by
  have hwritable : ∀ k : Fin 16, s.outcomeOf address beats.length = .entry k →
      k = i ∧ ¬ (!(Request.write address beats).isRead && ((s.regions[k]).mode == .readOnly || s.freeze[k])) = true := by
    intro k hk
    unfold State.classify at h
    rw [show s.outcomeOf (Request.write address beats).address (Request.write address beats).length = .entry k from hk] at h
    dsimp only at h
    split at h
    · exact nomatch h
    · next hwrite =>
      refine ⟨?_, hwrite⟩
      split at h
      · split at h
        · exact Verdict.proceed.inj h
        · exact nomatch h
        · exact nomatch h
      · exact Verdict.proceed.inj h
  cases houtcome : s.outcomeOf address beats.length with
  | entry k =>
    obtain ⟨rfl, hwrite⟩ := hwritable k houtcome
    refine Bool.eq_false_iff.mpr fun hfrozen => hwrite ?_
    rw [hfrozen, Bool.or_true]
    rfl
  | reserved row =>
    unfold State.classify at h
    rw [show s.outcomeOf (Request.write address beats).address (Request.write address beats).length = _ from houtcome] at h
    exact nomatch h
  | notMapped row =>
    unfold State.classify at h
    rw [show s.outcomeOf (Request.write address beats).address (Request.write address beats).length = _ from houtcome] at h
    exact nomatch h
  | split row =>
    unfold State.classify at h
    rw [show s.outcomeOf (Request.write address beats).address (Request.write address beats).length = _ from houtcome] at h
    exact nomatch h

theorem State.examineRead_taken {p : PendingRead} {i : Fin 16}
    (h : s.classify (.read p.address p.beats) false = .proceed i) :
    s.examineRead p =
      ({ s with pendingRead := some { p with taken := true } } : State).asksFront
        { source := .pendingRead, request := .read p.address p.beats, mark := none, region := i
          mode := (s.regions[i]).mode, frozen := s.freeze[i], rows := (rowsOf p.address p.beats).map readJobRow
          phase := .reading 0 } (.read (rowOf p.address)) := by
  unfold State.examineRead
  dsimp only
  rw [h]
  rfl

/-! ## The rows of a write job -/

theorem classOf_full {enables : BitVec 16} (h : classOf enables = .full) : enables = 0xFFFF#16 := by
  unfold classOf at h
  split at h
  · exact nomatch h
  · split at h
    · next hfull => exact hfull
    · exact nomatch h

/-- A row record as a write job begins with it: its class is that of its enables, a record is needed for a touched row
only, and so is a read (R134, R135). -/
def JobRow.fresh (r : JobRow) : Prop :=
  r.cls = classOf r.enables ∧ r.needsRead = (r.cls == .part || r.needsRecord) ∧ (r.needsRecord = true → r.touched = true)

theorem State.writeJobRow_fresh (address : Address) (beats : List Beat) (mode : RegionMode) (row : Nat) :
    (s.writeJobRow address beats mode row).fresh := by
  refine ⟨rfl, rfl, fun h => ?_⟩
  have hall : ((classOf (rowEnables address beats row) != .untouched && mode == .journaled)
      && s.needsRecord row) = true := h
  rw [Bool.and_eq_true, Bool.and_eq_true] at hall
  exact hall.1.1

theorem JobRow.touched_of_needsRead {r : JobRow} (hfresh : r.fresh) (h : r.needsRead = true) : r.touched = true := by
  obtain ⟨_, hread, hrecord⟩ := hfresh
  rw [hread, Bool.or_eq_true] at h
  obtain hpart | hneeds := h
  · rw [beq_iff_eq] at hpart
    simp [JobRow.touched, hpart]
  · exact hrecord hneeds

theorem JobRow.full_of_noRead {r : JobRow} (hfresh : r.fresh) (h : r.needsRead = false) (htouched : r.touched = true) :
    r.enables = 0xFFFF#16 ∧ r.needsRecord = false := by
  obtain ⟨hclass, hread, -⟩ := hfresh
  rw [hread, Bool.or_eq_false_iff] at h
  obtain ⟨hnotPart, hrecord⟩ := h
  refine ⟨classOf_full ?_, hrecord⟩
  rw [← hclass]
  unfold JobRow.touched at htouched
  cases hcls : r.cls with
  | untouched => simp [hcls] at htouched
  | part => simp [hcls] at hnotPart
  | full => rfl

theorem JobRow.noRecord_of_noRead {r : JobRow} (hfresh : r.fresh) (h : r.needsRead = false) : r.needsRecord = false := by
  obtain ⟨-, hread, -⟩ := hfresh
  rw [hread, Bool.or_eq_false_iff] at h
  exact h.2

/-! ## A write job begins -/

section
variable {j : Job}

theorem State.startWriteJob_reads {k : Nat} {q : JobRow} (h : nextRow JobRow.needsRead j.rows 0 = some k)
    (hq : j.rows[k]? = some q) : s.startWriteJob j = s.asksFront { j with phase := .reading k } (.read q.row) := by
  unfold State.startWriteJob
  rw [h]
  exact State.issueRead_eq hq

variable (hfresh : ∀ r ∈ j.rows, r.fresh) (hclear : s.freeze[j.region] = false)
include hfresh hclear

theorem State.startWriteJob_noRead (h : nextRow JobRow.needsRead j.rows 0 = none) :
    s.startWriteJob j = ({ s with job := some j } : State).startWriting j := by
  have hnone : nextRow JobRow.needsRecord j.rows 0 = none := (nextRow_eq_none_iff _ _ _).mpr fun m q hm hq =>
    JobRow.noRecord_of_noRead (hfresh q (List.mem_of_getElem? hq)) ((nextRow_eq_none_iff _ _ _).mp h m q hm hq)
  have hafter : s.startWriteJob j = s.afterReads j := by
    unfold State.startWriteJob
    rw [h]
  rw [hafter, State.afterReads_asks hclear, State.requestSpace_none hnone]

/-- A job that reads nothing writes its first FULL row whole (R141, R142). -/
theorem State.startWriteJob_writes (h : nextRow JobRow.needsRead j.rows 0 = none) {k : Nat} {q : JobRow}
    (hnext : nextRow JobRow.touched j.rows 0 = some k) (hq : j.rows[k]? = some q) :
    s.startWriteJob j = s.asksFront { j with phase := .writing k } (.write q.row (freshRow q.row q.data)) := by
  obtain ⟨hk, ⟨q', hq', htouched⟩, -⟩ := (nextRow_eq_some_iff _ _ _ _).mp hnext
  obtain rfl : q = q' := Option.some.inj (hq.symm.trans hq')
  obtain ⟨henables, -⟩ := JobRow.full_of_noRead (hfresh q (List.mem_of_getElem? hq))
    ((nextRow_eq_none_iff _ _ _).mp h k q hk hq) htouched
  rw [State.startWriteJob_noRead hfresh hclear h, State.startWriting_writes hnext hq, Job.mergedRow_full hq henables]
  rfl

/-- A job without an enabled byte ends with success (R134, R142). -/
theorem State.startWriteJob_ends (hnone : nextRow JobRow.touched j.rows 0 = none) {e : Entry} {rest : List Entry}
    (hqueue : s.queue = e :: rest) : s.startWriteJob j = s.writeJobEnded e rest true := by
  have hread : nextRow JobRow.needsRead j.rows 0 = none := (nextRow_eq_none_iff _ _ _).mpr fun m q hm hq => by
    have huntouched := (nextRow_eq_none_iff _ _ _).mp hnone m q hm hq
    refine Bool.eq_false_iff.mpr fun hneeds => ?_
    rw [JobRow.touched_of_needsRead (hfresh q (List.mem_of_getElem? hq)) hneeds] at huntouched
    exact nomatch huntouched
  rw [State.startWriteJob_noRead hfresh hclear hread,
    State.startWriting_ends (u := { s with job := some j }) hnone hqueue]
  rfl

end

/-! ## A whole row -/

/-- The four enabled beats of an aligned burst enable its row (R94, R134). -/
theorem rowEnables_whole {address : Address} {beats : List Beat} (hbeats : beats.length = 4)
    (hburst : burstAcceptable address 4 = true) (henabled : ∀ b ∈ beats, b.enable = 0xF#4) :
    rowEnables address beats (rowOf address) = 0xFFFF#16 := by
  obtain ⟨-, halign⟩ := (burstAcceptable_iff address 4).mp hburst
  refine classOf_full ((classOf_full_iff _).mpr fun k hk => ?_)
  obtain ⟨b, hb⟩ : ∃ b, beats[k / 4]? = some b := ⟨_, List.getElem?_eq_getElem (by omega)⟩
  have hbyte : 16 * rowOf address + k = address.toNat + 4 * (k / 4) + k % 4 := by
    unfold rowOf
    omega
  have hmod : k % 4 < 4 := Nat.mod_lt k (by decide)
  have hbits : ∀ m, m < 4 → (0xF#4).getLsbD m = true := by decide
  rw [rowEnables_getLsbD address beats _ hk, hbyte, requestByte_of_beat address hb hmod]
  show b.enable.getLsbD (k % 4) = true
  rw [henabled b (List.mem_of_getElem? hb)]
  exact hbits _ hmod

theorem rowsOf_four (address : Address) : rowsOf address 4 = [rowOf address] := rfl

end

/-- JOB_TAKE of a head that goes ahead, with no read offered: its job starts (R131, R132). -/
theorem exec_jobTake_head {s t : State} {e : Entry} {rest : List Entry} {i : Fin 16} (hreset : s.inReset = false)
    (hjob : s.job = none) (hdue : s.activationDue = false)
    (hread : ∀ p, s.pendingRead = some p → p.taken = true ∨ s.readHeld = true
      ∨ ∃ x ∈ s.queue, ∃ row ∈ rowsOf p.address p.beats, row ∈ rowsOf x.address x.beats.length)
    (hqueue : s.queue = e :: rest) (hstate : e.state = .notStarted) (hheld : s.headHeld = false)
    (hverdict : s.classify (.write e.address e.beats) (s.ahead e) = .proceed i)
    (ht : t = { s with queue := { e with state := .taken, timed := false } :: rest }) :
    exec .jobTake s = .next (t.startWriteJob (s.writeJob e i)) := by
  rw [exec_jobTake hreset hjob hdue, State.examine_head hread hqueue hstate hheld, State.examineHead_taken hverdict,
    State.takeHead_eq hqueue, ht]

/-- Settles O29: the pending read, the whole row, and the general write job by its first row. -/
theorem jobsAreTaken : Obligations.JobsAreTaken := by
  unfold Obligations.JobsAreTaken
  refine ⟨fun s address beats i hreset hjob hdue hpending hheld heligible hverdict => ?_,
    fun s e rest i record hreset hjob hdue hpending hqueue hstate hheld hbeats hburst henabled hclear hverdict hrecord => ?_,
    fun s t e rest i record rows j hreset hjob hdue hread hqueue hstate hheld hverdict hrecord hrows ht hj => ?_⟩
  · have hoffered := State.offeredRead_some hpending rfl hheld heligible
    rw [exec_jobTake hreset hjob hdue, State.examine_read hoffered (fun h => nomatch hverdict.symm.trans h),
      State.examineRead_taken hverdict]
    rfl
  · have hrows : (s.writeJob e i).rows =
        [{ row := rowOf e.address, data := rowBytes e.address e.beats (rowOf e.address), enables := 0xFFFF#16, cls := .full
           needsRead := record, needsRecord := record, result := none }] := by
      show (rowsOf e.address e.beats.length).map _ = _
      rw [hbeats, rowsOf_four, List.map_singleton]
      unfold State.writeJobRow
      rw [rowEnables_whole hbeats hburst henabled, hrecord]
      rfl
    have hfresh : ∀ r ∈ (s.writeJob e i).rows, r.fresh := by
      intro r hr
      obtain ⟨row, -, rfl⟩ := List.mem_map.mp hr
      exact s.writeJobRow_fresh _ _ _ row
    rw [exec_jobTake_head hreset hjob hdue (fun p hp => nomatch hpending.symm.trans hp) hqueue hstate hheld hverdict rfl]
    have hjob' : s.writeJob e i =
        { source := .queueHead e.number, request := .write e.address e.beats, mark := some e.mark, region := i
          mode := (s.regions[i]).mode, frozen := false, rows := (s.writeJob e i).rows, phase := .reading 0 } := by
      rw [← hclear]
      rfl
    rw [hrows] at hjob' hfresh
    rw [hjob']
    cases record with
    | true => exact congrArg Host.Outcome.next ((State.startWriteJob_reads (k := 0) rfl rfl).trans rfl)
    | false => exact congrArg Host.Outcome.next ((State.startWriteJob_writes (k := 0) hfresh hclear rfl rfl rfl).trans rfl)
  · have hjob' : s.writeJob e i = j := by
      have hcovers : e.rows.map (s.writeJobRow e.address e.beats (s.regions[i]).mode) = rows := by
        rw [hrows]
        refine List.map_congr_left fun row _ => ?_
        rw [hrecord row]
        rfl
      rw [hj, ← hcovers]
      rfl
    have hfresh : ∀ r ∈ j.rows, r.fresh := by
      rw [← hjob']
      intro r hr
      obtain ⟨row, -, rfl⟩ := List.mem_map.mp hr
      exact s.writeJobRow_fresh _ _ _ row
    have hclear : t.freeze[j.region] = false := by
      rw [ht, ← hjob']
      exact State.freeze_of_proceeds hverdict
    have hexec := exec_jobTake_head hreset hjob hdue hread hqueue hstate hheld hverdict ht
    have hsame : j.rows = rows := by rw [hj]
    rw [hexec, hjob', ← hsame]
    refine ⟨fun k r hnext hr => ?_, fun k r hnone hnext hr => ?_, fun hnone => ?_⟩
    · exact congrArg Host.Outcome.next (State.startWriteJob_reads hnext hr)
    · exact congrArg Host.Outcome.next (State.startWriteJob_writes hfresh hclear hnone hnext hr)
    · exact congrArg Host.Outcome.next
        (State.startWriteJob_ends hfresh hclear hnone (e := { e with state := .taken, timed := false }) (by rw [ht]))

end Sys2Proof.Machine
